-- ==== Sys2Proof/Word.lean ====
section
/-! DEFINITION. The value types of 00_scope.md rule R13: words, operands, LFSR states, floating-point bit patterns,
chips and complex samples. -/

namespace Sys2Proof

/-- A word of the command or response port (30_encoding.md R100, R108). -/
abbrev Word := BitVec 32

/-- The operand field `a` of a command word (30_encoding.md R100). -/
abbrev Operand := BitVec 24

/-- A 23-bit LFSR state (00_scope.md R13). -/
abbrev LfsrState := BitVec 23

/-- An IEEE-754 binary32 value, held as its bit pattern (00_scope.md R13). -/
abbrev F32 := BitVec 32

/-- An IEEE-754 binary64 value, held as its bit pattern (00_scope.md R13). -/
abbrev F64 := BitVec 64

/-- A chip: a signed unit value (00_scope.md R13). -/
inductive Chip where
  | plus
  | minus
deriving DecidableEq, Repr

/-- A pair of binary32 values, real part first (00_scope.md R13; 20_memory.md R66). -/
structure Sample where
  re : F32
  im : F32
deriving DecidableEq, Repr

end Sys2Proof
end

