-- ==== Sys2Proof/Syntax.lean ====
section
/-! DEFINITION. The 25 operations of 30_encoding.md rule R113, one constructor for each row of the opcode table.
An operand is the raw 24-bit field `a`, a payload the raw words that follow the command word: range tests on both
belong to the operations (30_encoding.md R103, R115). For `FB.LD`, `MSG.LDB` and `MSG.LDBITS` the operand is the
number of payload words (R102), so the payload alone is kept (log entry 20). -/

namespace Sys2Proof

/-- One operation of CORE, with its operand and payload (30_encoding.md R113). -/
inductive Instr where
  /-- `RESET` (46_system.md R251). -/
  | reset
  /-- `CSR.WR r {v}` (46_system.md R252). -/
  | csrWr (r : Operand) (v : Word)
  /-- `CSR.RD r` (46_system.md R253). -/
  | csrRd (r : Operand)
  /-- `BUF.RD sel` (46_system.md R254). -/
  | bufRd (sel : Operand)
  /-- `LFSR.LDI seed` (40_lfsr.md R138). -/
  | lfsrLdi (seed : Operand)
  /-- `LFSR.LDQ seed` (40_lfsr.md R139). -/
  | lfsrLdq (seed : Operand)
  /-- `LFSR.STEPI` (40_lfsr.md R140). -/
  | lfsrStepi
  /-- `LFSR.STEPQ` (40_lfsr.md R141). -/
  | lfsrStepq
  /-- `LFSR.GENI n` (40_lfsr.md R142). -/
  | lfsrGeni (n : Operand)
  /-- `LFSR.GENQ n` (40_lfsr.md R143). -/
  | lfsrGenq (n : Operand)
  /-- `FB.LD n {bits}` (41_dsss.md R155). -/
  | fbLd (payload : List Word)
  /-- `DSSS.SPREAD` (41_dsss.md R156). -/
  | dsssSpread
  /-- `RRC.TAPS` (42_rrc.md R174). -/
  | rrcTaps
  /-- `RRC.SHAPEI` (42_rrc.md R175). -/
  | rrcShapei
  /-- `RRC.SHAPEQ` (42_rrc.md R176). -/
  | rrcShapeq
  /-- `OQPSK.MOD` (43_oqpsk.md R192). -/
  | oqpskMod
  /-- `BPL.BIT b` (44_biphase.md R205). -/
  | bplBit (b : Operand)
  /-- `MSG.LDB n {bytes}` (45_frame.md R211). -/
  | msgLdb (payload : List Word)
  /-- `MSG.LDBITS n {bits}` (45_frame.md R212). -/
  | msgLdbits (payload : List Word)
  /-- `FRM.BUILD` (45_frame.md R217). -/
  | frmBuild
  /-- `ASM` (45_frame.md R220). -/
  | asm
  /-- `PULL n` (45_frame.md R225). -/
  | pull (n : Operand)
  /-- `REWIND` (45_frame.md R229). -/
  | rewind
  /-- `SELFCHK` (46_system.md R255). -/
  | selfchk
  /-- `VERIFY seed {hi, lo}` (46_system.md R256). -/
  | verify (seed : Operand) (hi lo : Word)
deriving DecidableEq, Repr

end Sys2Proof
end

