-- ==== Sys2Proof/WellFormed.lean ====
section
/-! DEFINITION. Which terms of `Instr` some command stands for: a payload's length must fit the 24-bit count operand
(30_encoding.md R101, R102). Every other field takes every value of its width. -/

namespace Sys2Proof

/-- The number of payload words fits a count operand, 0 to `2^24 - 1` (30_encoding.md R101). -/
def payloadFits (payload : List Word) : Bool := payload.length < 2 ^ 24

/-- The instruction is the meaning of some command (30_encoding.md R100 to R102). -/
def Instr.wf : Instr → Bool
  | .fbLd payload => payloadFits payload
  | .msgLdb payload => payloadFits payload
  | .msgLdbits payload => payloadFits payload
  | .reset => true
  | .csrWr _ _ => true
  | .csrRd _ => true
  | .bufRd _ => true
  | .lfsrLdi _ => true
  | .lfsrLdq _ => true
  | .lfsrStepi => true
  | .lfsrStepq => true
  | .lfsrGeni _ => true
  | .lfsrGenq _ => true
  | .dsssSpread => true
  | .rrcTaps => true
  | .rrcShapei => true
  | .rrcShapeq => true
  | .oqpskMod => true
  | .bplBit _ => true
  | .frmBuild => true
  | .asm => true
  | .pull _ => true
  | .rewind => true
  | .selfchk => true
  | .verify _ _ _ => true

end Sys2Proof
end

