-- ==== Sys2Proof/Decode.lean ====
section
/-! DEFINITION. Decoding of commands and their encoding (30_encoding.md R100 to R104, R113 to R116).
A command is one command word and its payload words; decoding is total: a list of words holds a command, a rejected
command word with the reason, or not yet a whole command. -/

namespace Sys2Proof

/-! ### The fields of a command word -/

/-- The operation code, bits 31:24 (30_encoding.md R100). -/
def opcodeOf (w : Word) : BitVec 8 := w.extractLsb' 24 8

/-- The operand, bits 23:0 (30_encoding.md R100). -/
def operandOf (w : Word) : Operand := w.extractLsb' 0 24

/-- The command word with operation code `op` and operand `a` (30_encoding.md R100). -/
def cmdWord (op : BitVec 8) (a : Operand) : Word := op ++ a

/-! ### The opcode map -/

/-- The three formats of 30_encoding.md R101. -/
inductive Format where
  /-- No operand: `a` must be 0. -/
  | n
  /-- An operand. -/
  | a
  /-- An operand and payload words. -/
  | ap
deriving DecidableEq, Repr

/-- One row of the opcode map. -/
structure OpRow where
  op : BitVec 8
  mnemonic : String
  format : Format
deriving DecidableEq, Repr

/-- The opcode map of 30_encoding.md R113. -/
def opTable : List OpRow :=
  [⟨0x01, "RESET", .n⟩, ⟨0x02, "CSR.WR", .ap⟩, ⟨0x03, "CSR.RD", .a⟩, ⟨0x04, "BUF.RD", .a⟩,
   ⟨0x10, "LFSR.LDI", .a⟩, ⟨0x11, "LFSR.LDQ", .a⟩, ⟨0x12, "LFSR.STEPI", .n⟩, ⟨0x13, "LFSR.STEPQ", .n⟩,
   ⟨0x14, "LFSR.GENI", .a⟩, ⟨0x15, "LFSR.GENQ", .a⟩, ⟨0x20, "FB.LD", .ap⟩, ⟨0x21, "DSSS.SPREAD", .n⟩,
   ⟨0x30, "RRC.TAPS", .n⟩, ⟨0x31, "RRC.SHAPEI", .n⟩, ⟨0x32, "RRC.SHAPEQ", .n⟩, ⟨0x40, "OQPSK.MOD", .n⟩,
   ⟨0x50, "BPL.BIT", .a⟩, ⟨0x60, "MSG.LDB", .ap⟩, ⟨0x61, "MSG.LDBITS", .ap⟩, ⟨0x62, "FRM.BUILD", .n⟩,
   ⟨0x63, "ASM", .n⟩, ⟨0x70, "PULL", .a⟩, ⟨0x71, "REWIND", .n⟩, ⟨0x7E, "SELFCHK", .n⟩, ⟨0x7F, "VERIFY", .ap⟩]

/-- The value a row's command words have under its mask (30_encoding.md R113). -/
def OpRow.pattern (r : OpRow) : Word := cmdWord r.op 0

/-- The bits a row fixes: the operation code, and in format N the operand too (30_encoding.md R101, R113). -/
def OpRow.mask (r : OpRow) : Word :=
  match r.format with
  | .n => 0xFFFFFFFF
  | .a => 0xFF000000
  | .ap => 0xFF000000

/-- The row selects the word: `(w and mask) = match` (30_encoding.md R113). -/
def OpRow.selects (r : OpRow) (w : Word) : Bool := w &&& r.mask == r.pattern

/-- How many payload words follow a command word; it depends on `op` and `a` only (30_encoding.md R102). -/
def payloadCount (w : Word) : Nat :=
  match opcodeOf w with
  | 0x02#8 => 1
  | 0x7F#8 => 2
  | 0x20#8 => (operandOf w).toNat
  | 0x60#8 => (operandOf w).toNat
  | 0x61#8 => (operandOf w).toNat
  | _ => 0

/-! ### Decoding -/

/-- Why a command word is no operation. -/
inductive Rejection where
  /-- The operation code is not in the map (30_encoding.md R114). -/
  | illegalOpcode (op : BitVec 8)
  /-- A format N command has a non-zero operand (30_encoding.md R115). -/
  | reservedOperand (op : BitVec 8) (a : Operand)
deriving DecidableEq, Repr

/-- What stands at the front of a list of words. -/
inductive Decoded where
  /-- A whole command, and the words after it. -/
  | command (i : Instr) (rest : List Word)
  /-- An illegal command word, which has no payload (30_encoding.md R102), and the words after it. -/
  | rejected (why : Rejection) (rest : List Word)
  /-- No command word, or fewer payload words than the command has. -/
  | incomplete
deriving DecidableEq, Repr

/-- A format N command: the operand must be 0 (30_encoding.md R101, R115). -/
def decodeN (w : Word) (i : Instr) (rest : List Word) : Decoded :=
  if operandOf w = 0 then .command i rest
  else .rejected (.reservedOperand (opcodeOf w) (operandOf w)) rest

/-- A command whose payload is `n` words, `n` given by its operand (30_encoding.md R102, R103). -/
def decodeList (n : Nat) (mk : List Word → Instr) (rest : List Word) : Decoded :=
  if rest.length < n then .incomplete else .command (mk (rest.take n)) (rest.drop n)

/-- `CSR.WR`, with its one payload word (30_encoding.md R102). -/
def decodeCsrWr (a : Operand) : List Word → Decoded
  | v :: rest => .command (.csrWr a v) rest
  | [] => .incomplete

/-- `VERIFY`, with its two payload words, bits 63:32 first (30_encoding.md R102, R103). -/
def decodeVerify (a : Operand) : List Word → Decoded
  | hi :: lo :: rest => .command (.verify a hi lo) rest
  | _ => .incomplete

/-- The operation a command word names, with the payload taken from the words after it (30_encoding.md R104, R113). -/
def decodeCommand (w : Word) (rest : List Word) : Decoded :=
  match opcodeOf w with
  | 0x01#8 => decodeN w .reset rest
  | 0x02#8 => decodeCsrWr (operandOf w) rest
  | 0x03#8 => .command (.csrRd (operandOf w)) rest
  | 0x04#8 => .command (.bufRd (operandOf w)) rest
  | 0x10#8 => .command (.lfsrLdi (operandOf w)) rest
  | 0x11#8 => .command (.lfsrLdq (operandOf w)) rest
  | 0x12#8 => decodeN w .lfsrStepi rest
  | 0x13#8 => decodeN w .lfsrStepq rest
  | 0x14#8 => .command (.lfsrGeni (operandOf w)) rest
  | 0x15#8 => .command (.lfsrGenq (operandOf w)) rest
  | 0x20#8 => decodeList (payloadCount w) .fbLd rest
  | 0x21#8 => decodeN w .dsssSpread rest
  | 0x30#8 => decodeN w .rrcTaps rest
  | 0x31#8 => decodeN w .rrcShapei rest
  | 0x32#8 => decodeN w .rrcShapeq rest
  | 0x40#8 => decodeN w .oqpskMod rest
  | 0x50#8 => .command (.bplBit (operandOf w)) rest
  | 0x60#8 => decodeList (payloadCount w) .msgLdb rest
  | 0x61#8 => decodeList (payloadCount w) .msgLdbits rest
  | 0x62#8 => decodeN w .frmBuild rest
  | 0x63#8 => decodeN w .asm rest
  | 0x70#8 => .command (.pull (operandOf w)) rest
  | 0x71#8 => decodeN w .rewind rest
  | 0x7E#8 => decodeN w .selfchk rest
  | 0x7F#8 => decodeVerify (operandOf w) rest
  | op => .rejected (.illegalOpcode op) rest

/-- The first command of a list of words (30_encoding.md R100, R104). -/
def decode : List Word → Decoded
  | [] => .incomplete
  | w :: rest => decodeCommand w rest

/-! ### Encoding -/

/-- The operation code of an instruction (30_encoding.md R113). -/
def Instr.opcode : Instr → BitVec 8
  | .reset => 0x01
  | .csrWr _ _ => 0x02
  | .csrRd _ => 0x03
  | .bufRd _ => 0x04
  | .lfsrLdi _ => 0x10
  | .lfsrLdq _ => 0x11
  | .lfsrStepi => 0x12
  | .lfsrStepq => 0x13
  | .lfsrGeni _ => 0x14
  | .lfsrGenq _ => 0x15
  | .fbLd _ => 0x20
  | .dsssSpread => 0x21
  | .rrcTaps => 0x30
  | .rrcShapei => 0x31
  | .rrcShapeq => 0x32
  | .oqpskMod => 0x40
  | .bplBit _ => 0x50
  | .msgLdb _ => 0x60
  | .msgLdbits _ => 0x61
  | .frmBuild => 0x62
  | .asm => 0x63
  | .pull _ => 0x70
  | .rewind => 0x71
  | .selfchk => 0x7E
  | .verify _ _ _ => 0x7F

/-- The operand of an instruction; 0 in format N, the payload's length where it counts the payload (30_encoding.md
R101, R102). -/
def Instr.operand : Instr → Operand
  | .reset => 0
  | .csrWr r _ => r
  | .csrRd r => r
  | .bufRd sel => sel
  | .lfsrLdi seed => seed
  | .lfsrLdq seed => seed
  | .lfsrStepi => 0
  | .lfsrStepq => 0
  | .lfsrGeni n => n
  | .lfsrGenq n => n
  | .fbLd payload => BitVec.ofNat 24 payload.length
  | .dsssSpread => 0
  | .rrcTaps => 0
  | .rrcShapei => 0
  | .rrcShapeq => 0
  | .oqpskMod => 0
  | .bplBit b => b
  | .msgLdb payload => BitVec.ofNat 24 payload.length
  | .msgLdbits payload => BitVec.ofNat 24 payload.length
  | .frmBuild => 0
  | .asm => 0
  | .pull n => n
  | .rewind => 0
  | .selfchk => 0
  | .verify seed _ _ => seed

/-- The payload words of an instruction (30_encoding.md R102, R103). -/
def Instr.payload : Instr → List Word
  | .csrWr _ v => [v]
  | .fbLd payload => payload
  | .msgLdb payload => payload
  | .msgLdbits payload => payload
  | .verify _ hi lo => [hi, lo]
  | .reset => []
  | .csrRd _ => []
  | .bufRd _ => []
  | .lfsrLdi _ => []
  | .lfsrLdq _ => []
  | .lfsrStepi => []
  | .lfsrStepq => []
  | .lfsrGeni _ => []
  | .lfsrGenq _ => []
  | .dsssSpread => []
  | .rrcTaps => []
  | .rrcShapei => []
  | .rrcShapeq => []
  | .oqpskMod => []
  | .bplBit _ => []
  | .frmBuild => []
  | .asm => []
  | .pull _ => []
  | .rewind => []
  | .selfchk => []

/-- The words of a command: the command word, then the payload (30_encoding.md R100). -/
def encode (i : Instr) : List Word := cmdWord i.opcode i.operand :: i.payload

/-! ### The opcode table's numbering -/

/-- The words of the command whose bits are `w`, the first word in bits 31..0, every bit above `nbits` zero; as many
words as the command has. -/
def tableWords (nbits w : Nat) : List Word :=
  let v := w % 2 ^ nbits
  let first : Word := BitVec.ofNat 32 v
  first :: (List.range (payloadCount first)).map fun k => BitVec.ofNat 32 (v >>> (32 * (k + 1)))

/-- The instruction the decoder reads from those words. -/
def decodeTableWord (nbits w : Nat) : Option Instr :=
  match decode (tableWords nbits w) with
  | .command i _ => some i
  | .rejected _ _ => none
  | .incomplete => none

end Sys2Proof
end

