-- ==== Sys2Proof/Config.lean ====
section
/-! DEFINITION. What is fixed for one CORE: the constants of 00_scope.md rule R8, and the open parameters of rule R9
as constants without a body, of which nothing can be proved (log entries 4 to 6, 17 and 22). -/

namespace Sys2Proof

/-! ### Exact real values

Every tap and sample has an exact real value given by the rules (00_scope.md R16). An expression names that value; what
the hardware stores for it is the numerics record's answer. `RealExpr.value` (Safety.lean) is the real number. -/

/-- The exact real values the rules of 42_rrc.md and 43_oqpsk.md write. -/
inductive RealExpr where
  /-- The rational `num / den`. -/
  | ratio (num : Int) (den : Nat)
  | pi
  /-- The value of a stored binary64 pattern. -/
  | stored64 (x : F64)
  /-- The value of a stored binary32 pattern. -/
  | stored32 (x : F32)
  | add (a b : RealExpr)
  | sub (a b : RealExpr)
  | mul (a b : RealExpr)
  | div (a b : RealExpr)
  | max (a b : RealExpr)
  | sqrt (a : RealExpr)
  | sin (a : RealExpr)
  | cos (a : RealExpr)
deriving DecidableEq, Repr

/-- Whether the RRC half-span counts chips or samples (00_scope.md R9). -/
inductive SpanUnit where
  | chips
  | samples
deriving DecidableEq, Repr, Inhabited

/-- Which two of the 252 bits of a 63-digit string the host drops (00_scope.md R9; 45_frame.md R213). -/
inductive HexPad where
  | leading
  | trailing
deriving DecidableEq, Repr, Inhabited

namespace Config

/-! ### Constants (00_scope.md R8) -/

/-- `TAP_A`, `TAP_B`: the state bits XORed to make the feedback bit. -/
def tapA : Nat := 0
def tapB : Nat := 18

/-- `FB_POS`: the state bit that receives the feedback bit. -/
def fbPos : Nat := 22

/-- `CPB`: chips per bit. -/
def chipsPerBit : Nat := 256

/-- `ALPHA`, the RRC roll-off, as the exact ratio 4/5. -/
def alphaNum : Nat := 4
def alphaDen : Nat := 5

/-- `SPAN_DEFAULT`: the RRC half-span at reset. -/
def spanDefault : BitVec 16 := 31

/-- `HALF`: samples per half bit in 1G; `SPB` is twice this. -/
def halfBit : Nat := 8

/-- `NCARRIER`: samples of unmodulated carrier in 1G. -/
def carrierSamples : Nat := 1024

/-- `NPRE1`: 1G preamble bits. -/
def preamble1G : Nat := 15

/-- `SYNC_NORMAL` and `SYNC_SELFTEST`: the 1G frame-sync patterns, first transmitted bit first. -/
def syncNormal : List Bool := [false, false, false, true, false, true, true, true, true]
def syncSelfTest : List Bool := [false, true, true, false, true, false, false, false, false]

/-- `NPRE2`: 2G preamble bits. -/
def preamble2G : Nat := 50

/-- `NMSG2`: 2G message bits. -/
def message2G : Nat := 250

/-- `SEED_I_NORMAL`. -/
def seedINormal : LfsrState := 0x000001

/-- `SEED_Q_NORMAL_A` and `SEED_Q_NORMAL_B`: the two candidate normal-mode Q seeds, neither chosen (40_lfsr.md R144). -/
def seedQNormalA : LfsrState := 0x000041
def seedQNormalB : LfsrState := 0x1AC3FC

/-- `REF64`: the reference vector, first chip in bit 63 (30_encoding.md R97). -/
def ref64 : BitVec 64 := 0x80000108421284A1

/-- No buffer holds this many elements (10_state.md R39). -/
def capacity : Nat := 2 ^ 32

/-! ### Open parameters (00_scope.md R9) -/

/-- `P_SEED_QN`: the reset value of the normal-mode Q seed; 0 means unresolved. -/
opaque seedQN : LfsrState

/-- `P_SEED_IT`: the reset value of the self-test I seed; 0 means unresolved. -/
opaque seedIT : LfsrState

/-- `P_SEED_QT`: the reset value of the self-test Q seed; 0 means unresolved. -/
opaque seedQT : LfsrState

/-- `SPAN_UNIT`. -/
opaque spanUnit : SpanUnit

/-- `NUM` at binary64: what is stored for an exact value where a tap is stored (00_scope.md R16). -/
opaque num64 : RealExpr → F64

/-- `NUM` at binary32: what is stored for an exact value where a shaped value or sample part is stored. -/
opaque num32 : RealExpr → F32

/-- `spc_of_rate`, a host function: a sample rate to samples per chip, or no usable value. DESIGN CHOICE: the rate is a
whole number of hertz; the spec gives its type only as `rate` (92_eei_decisions.md D12; log entry 22). -/
opaque spcOfRate : Nat → Option (BitVec 16)

/-- `HEX_PAD`, a host choice. -/
opaque hexPad : HexPad

end Config

end Sys2Proof
end

