-- ==== Sys2Proof/Machine/State.lean ====
section
/-! DEFINITION. The state of one CORE (10_state.md rules R20 to R41), the response of a command (30_encoding.md R108),
the reasons a step can stop, and the state after reset. -/

namespace Sys2Proof.Machine

/-- No step of CORE stops with a fault: every error kind is an error entry, which is a next state (60_exceptions.md
R275), and the refusal of an operation while faulted is one too (R277). Nobody raises one. -/
inductive Fault
deriving DecidableEq, Repr

/-- Why an instruction would be left without a meaning. -/
inductive Refusal where
  /-- Raised by an arm of `exec` that has no meaning yet; safe. No arm raises it: all 25 operations are modelled. -/
  | notModelled (mnemonic : String)
deriving DecidableEq, Repr

/-- The four error kinds (60_exceptions.md R270; 30_encoding.md R98). -/
inductive ErrKind where
  | invalidInput
  | invalidSeed
  | configurationMismatch
  | verificationFailure
deriving DecidableEq, Repr

/-- The generation `GEN` (10_state.md R27). -/
inductive Generation where
  | g1
  | g2
deriving DecidableEq, Repr

/-- The response to one command: done, with the end-of-stream event and the data words, or an error (30_encoding.md
R108). -/
inductive Response where
  | ok (endOfStream : Bool) (data : List Word)
  | error (kind : ErrKind)
deriving DecidableEq, Repr

/-- The state. The first three fields are the model's: the command port, the response port and the reset input. The
others are the state of CORE, and there is nothing else (10_state.md R21). -/
structure State where
  /-- Words the host has sent and CORE has not taken (30_encoding.md R100; log entry 1). -/
  port : List Word
  /-- The response to the last command (30_encoding.md R108; log entry 2). -/
  resp : Option Response
  /-- The reset input is asserted (70_reset_and_hazards.md R310; log entry 3). -/
  resetIn : Bool
  /-- `LFSR_I` (10_state.md R22). -/
  lfsrI : LfsrState
  /-- `LFSR_Q` (10_state.md R22). -/
  lfsrQ : LfsrState
  /-- `RES` (10_state.md R23). -/
  res : Word
  /-- `RDIDX` (10_state.md R24). -/
  rdidx : BitVec 32
  /-- `READY` (10_state.md R25). -/
  ready : Bool
  /-- `EOS` (10_state.md R25). -/
  eos : Bool
  /-- `ERR`, `none` for code 0 (10_state.md R25, R26). -/
  err : Option ErrKind
  /-- CSR 0 `CFG`, bits 2:0 (10_state.md R27). -/
  cfg : BitVec 3
  /-- CSR 1 `SPC`, bits 15:0 (10_state.md R28). -/
  spc : BitVec 16
  /-- CSR 2 `SPAN`, bits 15:0 (10_state.md R29). -/
  span : BitVec 16
  /-- CSR 3 `SEED_IN` (10_state.md R30). -/
  seedIN : LfsrState
  /-- CSR 4 `SEED_QN` (10_state.md R31). -/
  seedQN : LfsrState
  /-- CSR 5 `SEED_IT` (10_state.md R32). -/
  seedIT : LfsrState
  /-- CSR 6 `SEED_QT` (10_state.md R33). -/
  seedQT : LfsrState
  /-- `TAPS`; its length is `TLEN` (10_state.md R36). -/
  taps : List F64
  /-- `MBITS`; its length is `MLEN` (10_state.md R37). -/
  mbits : List Bool
  /-- `FBITS`; its length is `FLEN`. -/
  fbits : List Bool
  /-- `ICHIP`; its length is `ILEN`. -/
  ichip : List Chip
  /-- `QCHIP`; its length is `QLEN`. -/
  qchip : List Chip
  /-- `ISHP`. -/
  ishp : List F32
  /-- `QSHP`. -/
  qshp : List F32
  /-- `OBUF`; its length is `OLEN`. -/
  obuf : List Sample
deriving DecidableEq, Repr

/-- The state after reset: the table of 10_state.md R41. -/
def State.reset : State where
  port := []
  resp := none
  resetIn := false
  lfsrI := 0
  lfsrQ := 0
  res := 0
  rdidx := 0
  ready := false
  eos := false
  err := none
  cfg := 0
  spc := 0
  span := Config.spanDefault
  seedIN := Config.seedINormal
  seedQN := Config.seedQN
  seedIT := Config.seedIT
  seedQT := Config.seedQT
  taps := []
  mbits := []
  fbits := []
  ichip := []
  qchip := []
  ishp := []
  qshp := []
  obuf := []

end Sys2Proof.Machine
end

