-- ==== Sys2Proof/Machine/Numerics.lean ====
section
/-! DEFINITION. The stored floating-point values: those that are exact by construction (00_scope.md R16), the exact
size of a stored value, and the tolerances the source states for taps and samples (42_rrc.md R169, 43_oqpsk.md R190).
Within the tolerances the stored values are free (log entries 6 and 7). -/

namespace Sys2Proof.Machine

/-! ### Values exact by construction (00_scope.md R16) -/

/-- `0.0` and `1.0` as binary32. -/
def zero32 : F32 := 0x00000000
def one32 : F32 := 0x3F800000

/-- `0.0` and `1.0` as binary64. -/
def zero64 : F64 := 0x0000000000000000
def one64 : F64 := 0x3FF0000000000000

/-- The sample `(0.0, 0.0)`. -/
def zeroSample : Sample := ⟨zero32, zero32⟩

/-- The carrier sample `(1.0, 0.0)` (45_frame.md R218). -/
def carrierSample : Sample := ⟨one32, zero32⟩

/-! ### The exact size of a stored value -/

/-- A value with a sign, an exponent field and a fraction field, in units of the format's least positive value: an
exact integer for every finite pattern. -/
def scaledValue (negative : Bool) (exponent fraction hidden : Nat) : Int :=
  let m : Nat := if exponent = 0 then fraction else (hidden + fraction) * 2 ^ (exponent - 1)
  if negative then -(m : Int) else m

/-- The pattern is neither an infinity nor a NaN. -/
def finite32 (x : F32) : Bool := x.extractLsb' 23 8 != 0xFF

def finite64 (x : F64) : Bool := x.extractLsb' 52 11 != 0x7FF

/-- A finite binary32 value times `2^149`. -/
def scaled32 (x : F32) : Int :=
  scaledValue (x.getLsbD 31) (x.extractLsb' 23 8).toNat (x.extractLsb' 0 23).toNat (2 ^ 23)

/-- A finite binary64 value times `2^1074`. -/
def scaled64 (x : F64) : Int :=
  scaledValue (x.getLsbD 63) (x.extractLsb' 52 11).toNat (x.extractLsb' 0 52).toNat (2 ^ 52)

/-! ### Tolerances -/

/-- The sum of squared taps, times `2^2148`. -/
def scaledEnergy (taps : List F64) : Int := (taps.map fun x => scaled64 x * scaled64 x).sum

/-- `sum(taps[i]^2)` is 1 within 1e-6 (42_rrc.md R169). -/
def unitEnergy (taps : List F64) : Bool :=
  taps.all finite64 && decide ((scaledEnergy taps - 2 ^ 2148).natAbs * 10 ^ 6 ≤ 2 ^ 2148)

/-- The squared magnitude of a sample, times `2^298`. -/
def scaledMagSq (z : Sample) : Int := scaled32 z.re * scaled32 z.re + scaled32 z.im * scaled32 z.im

/-- The magnitude is finite and at most 1 + 1e-5. -/
def magAtMostOne (z : Sample) : Bool :=
  finite32 z.re && finite32 z.im && decide (scaledMagSq z * 10 ^ 10 ≤ 100001 ^ 2 * 2 ^ 298)

/-- The magnitude is at least 1 - 1e-5. -/
def magAtLeastOne (z : Sample) : Bool := decide (99999 ^ 2 * 2 ^ 298 ≤ scaledMagSq z * 10 ^ 10)

/-- `max(abs(s) for s in output) == 1.0` within 1e-5 (43_oqpsk.md R190). -/
def unitPeak (out : List Sample) : Bool := out.all magAtMostOne && out.any magAtLeastOne

/-- A free list of which only `ok` is known: the numerics record's answer where it meets the bound. Nothing is known of
that answer, so the result stands for every list of its length that meets the bound; `witness`, which meets it, only
shows that there is one (log entry 7). -/
def bounded {α : Type} (ok : List α → Bool) (answer witness : List α) : List α :=
  if ok answer then answer else witness

end Sys2Proof.Machine
end

