-- ==== Sys2Proof/Machine/Flags.lean ====
section
/-! DEFINITION. The flags and the configuration fields, and the `STATUS` view (10_state.md rules R25 to R27, R35). -/

namespace Sys2Proof.Machine

/-- `GEN`, bit 0 of `CFG` (10_state.md R27). -/
def State.gen (s : State) : Generation := if s.cfg.getLsbD 0 then .g2 else .g1

/-- `TEST`, bit 1 of `CFG`. -/
def State.test (s : State) : Bool := s.cfg.getLsbD 1

/-- `REPEAT`, bit 2 of `CFG`. -/
def State.cyclic (s : State) : Bool := s.cfg.getLsbD 2

/-- The code of an error kind (10_state.md R26). -/
def ErrKind.code : ErrKind → BitVec 3
  | .invalidInput => 1
  | .invalidSeed => 2
  | .configurationMismatch => 3
  | .verificationFailure => 4

/-- The `ERR` field: 0 when no error is latched (10_state.md R26). -/
def State.errCode (s : State) : BitVec 3 :=
  match s.err with
  | some k => k.code
  | none => 0

/-- `STATUS`: bit 0 `READY`, bit 1 `EOS`, bits 6:4 `ERR` (10_state.md R35). -/
def State.statusWord (s : State) : Word :=
  (BitVec.ofBool s.ready).setWidth 32 ||| ((BitVec.ofBool s.eos).setWidth 32 <<< 1) |||
    (s.errCode.setWidth 32 <<< 4)

/-- CORE is faulted: `ERR` is not 0 (10_state.md R26). -/
def State.faulted (s : State) : Bool := s.err.isSome

end Sys2Proof.Machine
end

