-- ==== Sys2Proof/Machine/Ops.lean ====
section
/-! DEFINITION. The shared operations over the state: responding, error entry and its end by reset, the refusal while
faulted, and the writing of a complete output (60_exceptions.md rules R275 to R279). -/

namespace Sys2Proof.Machine

/-! ### Responses -/

/-- Put a response on the response port (30_encoding.md R108). -/
def State.respond (s : State) (r : Response) : State := { s with resp := some r }

/-- The successful response without data words (30_encoding.md R109). -/
def Response.done : Response := .ok false []

/-- The header word: bit 31 `E`, bit 30 `S`, bits 2:0 `K` (30_encoding.md R108). -/
def Response.header : Response → Word
  | .ok endOfStream _ => (BitVec.ofBool endOfStream).setWidth 32 <<< 30
  | .error k => 0x80000000 ||| k.code.setWidth 32

/-- The words of a response: the header, then the data words; no data words follow an error (30_encoding.md R108). -/
def Response.words : Response → List Word
  | .ok endOfStream data => (Response.ok endOfStream data).header :: data
  | .error k => [(Response.error k).header]

/-! ### Errors -/

/-- Error entry with kind `k` (60_exceptions.md R275): the kind is latched, the output is dropped, every other register
and buffer keeps its value, and the response is the error. -/
def State.enterError (s : State) (k : ErrKind) : State :=
  { s with
    err := some k
    obuf := []
    ready := false
    eos := false
    rdidx := 0
    resp := some (.error k) }

/-- The one way out of the faulted state: every piece of state takes its reset value (46_system.md R251;
70_reset_and_hazards.md R310). The command port and the reset input are the host's and are kept. -/
def State.restart (s : State) : State :=
  { State.reset with port := s.port, resetIn := s.resetIn }

/-- What an operation does when CORE runs it: raise an error, or end in a state with a response (00_scope.md R14). -/
inductive Effect where
  | raise (k : ErrKind)
  | finish (t : State) (r : Response)
deriving DecidableEq, Repr

/-- Run an operation that a faulted CORE refuses: refused, it changes no state and responds with the latched kind
(60_exceptions.md R277); otherwise an error it raises is entered (R275). -/
def State.perform (s : State) (e : Effect) : Host.Outcome State Fault Refusal :=
  match s.err with
  | some k => .next (s.respond (.error k))
  | none =>
    match e with
    | .raise k => .next (s.enterError k)
    | .finish t r => .next (t.respond r)

/-- Run an operation that a faulted CORE accepts: an error it raises while CORE is faulted is answered, and `ERR` keeps
its first value (60_exceptions.md R277). -/
def State.performAlways (s : State) (e : Effect) : Host.Outcome State Fault Refusal :=
  match e with
  | .finish t r => .next (t.respond r)
  | .raise k =>
    match s.err with
    | some _ => .next (s.respond (.error k))
    | none => .next (s.enterError k)

/-- An illegal command word raises `InvalidInput` and is refused like an operation while faulted (30_encoding.md R114,
R115; 60_exceptions.md R277). -/
def rejectCommand (s : State) : Host.Outcome State Fault Refusal := s.perform (.raise .invalidInput)

/-- The reset input: the same effect as `RESET`, without a command to respond to (70_reset_and_hazards.md R310; log
entry 3). -/
def State.resetByInput (s : State) : State := { s.restart with resetIn := false }

/-! ### Output and results -/

/-- Write a complete output: playback starts at its first sample and `READY` is set (10_state.md R24, R25). -/
def State.setOutput (s : State) (out : List Sample) : State :=
  { s with obuf := out, rdidx := 0, eos := false, ready := true }

/-- Write `RES` and return the same word (10_state.md R23). -/
def State.finishResult (s : State) (v : Word) : Effect := .finish { s with res := v } (.ok false [v])

/-- A result buffer of this many elements is too large (10_state.md R39). -/
def overCapacity (n : Nat) : Bool := decide (Config.capacity ≤ n)

end Sys2Proof.Machine
end

