-- ==== Sys2Proof/Machine/Operands.lean ====
section
/-! DEFINITION. The operand and payload forms and their range tests, the element encodings of the response port, and
the CSR and buffer spaces (30_encoding.md rules R90, R103, R110; 10_state.md rules R27 to R37). -/

namespace Sys2Proof.Machine

/-! ### Bits and chips -/

/-- A logic bit as a chip: 1 is -1, 0 is +1 (30_encoding.md R90). -/
def chipOf (b : Bool) : Chip := if b then .minus else .plus

/-- The inverse of `chipOf` (30_encoding.md R90). -/
def bitOf : Chip → Bool
  | .plus => false
  | .minus => true

/-- The negation of a chip (30_encoding.md R91). -/
def negChip : Chip → Chip
  | .plus => .minus
  | .minus => .plus

/-! ### Operands and payload words -/

/-- A seed operand is in range: neither 0 nor `2^23` or more (40_lfsr.md R137). -/
def seedInRange (a : Operand) : Bool := a != 0 && !a.getLsbD 23

/-- The seed of an operand, its bits 22:0 (40_lfsr.md R138). -/
def seedOf (a : Operand) : LfsrState := a.setWidth 23

/-- A payload word is a bit: 0 or 1 (30_encoding.md R103). -/
def isBitWord (w : Word) : Bool := w ≤ 1

/-- A payload word is a byte: 0 to `0xFF` (30_encoding.md R103). -/
def isByteWord (w : Word) : Bool := w ≤ 0xFF

/-- The bit of a payload word. -/
def bitOfWord (w : Word) : Bool := w.getLsbD 0

/-- The eight bits of a payload byte, most significant first (20_memory.md R63). -/
def bitsOfByte (w : Word) : List Bool :=
  [w.getLsbD 7, w.getLsbD 6, w.getLsbD 5, w.getLsbD 4, w.getLsbD 3, w.getLsbD 2, w.getLsbD 1, w.getLsbD 0]

/-- The message bits of a payload of bytes (45_frame.md R211). -/
def bitsOfBytes (payload : List Word) : List Bool := payload.flatMap bitsOfByte

/-! ### Element encodings on the response port (30_encoding.md R110) -/

def bitWord (b : Bool) : Word := (BitVec.ofBool b).setWidth 32

def chipWord (c : Chip) : Word := bitWord (bitOf c)

/-- Bits 63:32, then bits 31:0. -/
def f64Words (x : F64) : List Word := [x.extractLsb' 32 32, x.extractLsb' 0 32]

/-- Real part, then imaginary part. -/
def sampleWords (z : Sample) : List Word := [z.re, z.im]

/-- A length register, 32 bits (10_state.md R39). -/
def lengthWord (n : Nat) : Word := BitVec.ofNat 32 n

/-! ### The CSR space -/

/-- The value read from CSR number `r`, for `r` from 0 to 16 (10_state.md R27 to R35). -/
def csrRead (r : Nat) (s : State) : Word :=
  match r with
  | 0 => s.cfg.setWidth 32
  | 1 => s.spc.setWidth 32
  | 2 => s.span.setWidth 32
  | 3 => s.seedIN.setWidth 32
  | 4 => s.seedQN.setWidth 32
  | 5 => s.seedIT.setWidth 32
  | 6 => s.seedQT.setWidth 32
  | 7 => s.statusWord
  | 8 => s.rdidx
  | 9 => lengthWord s.obuf.length
  | 10 => s.lfsrI.setWidth 32
  | 11 => s.lfsrQ.setWidth 32
  | 12 => lengthWord s.mbits.length
  | 13 => lengthWord s.fbits.length
  | 14 => lengthWord s.ichip.length
  | 15 => lengthWord s.qchip.length
  | 16 => lengthWord s.taps.length
  | _ => 0

/-- Write a configuration register, CSR 0 to 6; a write to `SPC` or `SPAN` empties `TAPS` (46_system.md R252). -/
def csrWrite (r : Nat) (v : Word) (s : State) : State :=
  match r with
  | 0 => { s with cfg := v.setWidth 3 }
  | 1 => { s with spc := v.setWidth 16, taps := [] }
  | 2 => { s with span := v.setWidth 16, taps := [] }
  | 3 => { s with seedIN := v.setWidth 23 }
  | 4 => { s with seedQN := v.setWidth 23 }
  | 5 => { s with seedIT := v.setWidth 23 }
  | 6 => { s with seedQT := v.setWidth 23 }
  | _ => s

/-- The value has no reserved bit of CSR `r` set; only CSR 0 to 2 have reserved bits that are tested so (10_state.md
R27 to R29). -/
def csrReservedClear (r : Nat) (v : Word) : Bool :=
  match r with
  | 0 => v >>> 3 == 0
  | 1 => v >>> 16 == 0
  | 2 => v >>> 16 == 0
  | _ => true

/-- CSR `r` is a seed register (10_state.md R30 to R33). -/
def isSeedCsr (r : Nat) : Bool := 3 ≤ r && r ≤ 6

/-- A value for a seed register is in range (10_state.md R30; 40_lfsr.md R137). -/
def seedWordInRange (v : Word) : Bool := v != 0 && v >>> 23 == 0

/-! ### The buffer space -/

/-- The elements of the buffer with selector `sel`, 0 to 7, as words (46_system.md R254; 30_encoding.md R110). -/
def bufferElements (sel : Nat) (s : State) : List Word :=
  match sel with
  | 0 => s.mbits.map bitWord
  | 1 => s.fbits.map bitWord
  | 2 => s.ichip.map chipWord
  | 3 => s.qchip.map chipWord
  | 4 => s.taps.flatMap f64Words
  | 5 => s.ishp
  | 6 => s.qshp
  | 7 => s.obuf.flatMap sampleWords
  | _ => []

/-- The element count of the buffer with selector `sel` (46_system.md R254). -/
def bufferLength (sel : Nat) (s : State) : Nat :=
  match sel with
  | 0 => s.mbits.length
  | 1 => s.fbits.length
  | 2 => s.ichip.length
  | 3 => s.qchip.length
  | 4 => s.taps.length
  | 5 => s.ishp.length
  | 6 => s.qshp.length
  | 7 => s.obuf.length
  | _ => 0

end Sys2Proof.Machine
end

