-- ==== Sys2Proof/Machine/Biphase.lean ====
section
/-! DEFINITION. The Biphase-L direct modulator (44_biphase.md): `modulate_bit`, then `BPL.BIT`. -/

namespace Sys2Proof.Machine

/-- `P_PLUS`, phase +1.1 rad, correctly rounded (44_biphase.md R201). -/
def phasePlus : Sample := ⟨0x3EE83DC0, 0x3F64262A⟩

/-- `P_MINUS`, phase -1.1 rad (44_biphase.md R201). -/
def phaseMinus : Sample := ⟨0x3EE83DC0, 0xBF64262A⟩

/-- `modulate_bit(b)`: two half bits of opposite phase, +1.1 rad first for 1 (44_biphase.md R202). -/
def modulateBit (b : Bool) : List Sample :=
  if b then List.replicate Config.halfBit phasePlus ++ List.replicate Config.halfBit phaseMinus
  else List.replicate Config.halfBit phaseMinus ++ List.replicate Config.halfBit phasePlus

/-- `BPL.BIT b` (44_biphase.md R205). -/
def execBplBit (b : Operand) (s : State) : Host.Outcome State Fault Refusal :=
  s.perform <|
    if 1 < b.toNat then .raise .invalidInput
    else .finish (s.setOutput (modulateBit (b == 1))) .done

end Sys2Proof.Machine
end

