-- ==== Sys2Proof/Machine/Lfsr.lean ====
section
/-! DEFINITION. The 23-bit LFSR (40_lfsr.md): the step and the sequence as functions, then `LFSR.LDI`, `LFSR.LDQ`,
`LFSR.STEPI`, `LFSR.STEPQ`, `LFSR.GENI`, `LFSR.GENQ`. -/

namespace Sys2Proof.Machine

/-! ### The generator -/

/-- The feedback bit of a state: bit 0 xor bit 18 (40_lfsr.md R131). -/
def feedback (s : LfsrState) : Bool := s.getLsbD Config.tapA ^^ s.getLsbD Config.tapB

/-- The state after one step: shifted right, the feedback bit inserted at bit 22 (40_lfsr.md R131). -/
def advance (s : LfsrState) : LfsrState :=
  ((s >>> 1) ||| ((BitVec.ofBool (feedback s)).setWidth 23 <<< Config.fbPos)) &&& 0x7FFFFF

/-- `next_chip(s)`: the output bit, read before the shift, and the next state (40_lfsr.md R131). -/
def nextChip (s : LfsrState) : Bool × LfsrState := (s.getLsbD 0, advance s)

/-- `n` steps from `s`: the output bits in order, and the final state (40_lfsr.md R132). -/
def generateBits (s : LfsrState) : Nat → List Bool × LfsrState
  | 0 => ([], s)
  | n + 1 => ((nextChip s).1 :: (generateBits (nextChip s).2 n).1, (generateBits (nextChip s).2 n).2)

/-- `generate_sequence(s, n)`: the bits as chips, and the final state (40_lfsr.md R132). -/
def generateSequence (s : LfsrState) (n : Nat) : List Chip × LfsrState :=
  ((generateBits s n).1.map chipOf, (generateBits s n).2)

/-- `pack64(bits)`: `bits[i]` in bit `63 - i` (46_system.md R250; 20_memory.md R65). -/
def pack64 (bits : List Bool) : BitVec 64 :=
  bits.foldl (fun acc b => (acc <<< 1) ||| (BitVec.ofBool b).setWidth 64) 0

/-- `first64(seed)`: the first 64 output bits, packed (46_system.md R250). -/
def first64 (seed : LfsrState) : BitVec 64 := pack64 (generateBits seed 64).1

/-! ### The operations -/

/-- `LFSR.LDI seed` (40_lfsr.md R138). -/
def execLfsrLdi (seed : Operand) (s : State) : Host.Outcome State Fault Refusal :=
  s.perform <|
    if seedInRange seed then .finish { s with lfsrI := seedOf seed } .done
    else .raise .invalidSeed

/-- `LFSR.LDQ seed` (40_lfsr.md R139). -/
def execLfsrLdq (seed : Operand) (s : State) : Host.Outcome State Fault Refusal :=
  s.perform <|
    if seedInRange seed then .finish { s with lfsrQ := seedOf seed } .done
    else .raise .invalidSeed

/-- `LFSR.STEPI` (40_lfsr.md R140); the zero state is refused (R136). -/
def execLfsrStepi (s : State) : Host.Outcome State Fault Refusal :=
  s.perform <|
    if s.lfsrI = 0 then .raise .invalidSeed
    else { s with lfsrI := (nextChip s.lfsrI).2 }.finishResult (bitWord (nextChip s.lfsrI).1)

/-- `LFSR.STEPQ` (40_lfsr.md R141). -/
def execLfsrStepq (s : State) : Host.Outcome State Fault Refusal :=
  s.perform <|
    if s.lfsrQ = 0 then .raise .invalidSeed
    else { s with lfsrQ := (nextChip s.lfsrQ).2 }.finishResult (bitWord (nextChip s.lfsrQ).1)

/-- `LFSR.GENI n` (40_lfsr.md R142); the zero state is refused even for `n = 0` (R136). -/
def execLfsrGeni (n : Operand) (s : State) : Host.Outcome State Fault Refusal :=
  s.perform <|
    if s.lfsrI = 0 then .raise .invalidSeed
    else
      .finish
        { s with
          ichip := (generateSequence s.lfsrI n.toNat).1
          lfsrI := (generateSequence s.lfsrI n.toNat).2 } .done

/-- `LFSR.GENQ n` (40_lfsr.md R143). -/
def execLfsrGenq (n : Operand) (s : State) : Host.Outcome State Fault Refusal :=
  s.perform <|
    if s.lfsrQ = 0 then .raise .invalidSeed
    else
      .finish
        { s with
          qchip := (generateSequence s.lfsrQ n.toNat).1
          lfsrQ := (generateSequence s.lfsrQ n.toNat).2 } .done

end Sys2Proof.Machine
end

