-- ==== Sys2Proof/Machine/Dsss.lean ====
section
/-! DEFINITION. The DSSS spreader (41_dsss.md): `spread` as a function, then `FB.LD` and `DSSS.SPREAD`. -/

namespace Sys2Proof.Machine

/-- The chips of both channels and the two LFSR states after them (41_dsss.md R150). -/
structure Spread where
  iChips : List Chip
  qChips : List Chip
  stateI : LfsrState
  stateQ : LfsrState
deriving DecidableEq, Repr

/-- The chip group of one bit: the next chips of the channel's generator, negated when the bit is 1 (41_dsss.md R151;
30_encoding.md R91). -/
def chipGroup (bit : Bool) (cpb : Nat) (s : LfsrState) : List Chip × LfsrState :=
  ((generateSequence s cpb).1.map (fun c => if bit then negChip c else c), (generateSequence s cpb).2)

/-- `spread` from position `p` on: even positions go to the I channel, odd positions to the Q channel, and neither
generator is reset between bits (41_dsss.md R151; 70_reset_and_hazards.md R320). -/
def spreadFrom (p : Nat) : List Bool → Nat → LfsrState → LfsrState → Spread
  | [], _, si, sq => ⟨[], [], si, sq⟩
  | bit :: rest, cpb, si, sq =>
    if p % 2 = 0 then
      let g := chipGroup bit cpb si
      let r := spreadFrom (p + 1) rest cpb g.2 sq
      { r with iChips := g.1 ++ r.iChips }
    else
      let g := chipGroup bit cpb sq
      let r := spreadFrom (p + 1) rest cpb si g.2
      { r with qChips := g.1 ++ r.qChips }

/-- `spread(fb, cpb, si, sq)` (41_dsss.md R151). -/
def spread (fb : List Bool) (cpb : Nat) (si sq : LfsrState) : Spread := spreadFrom 0 fb cpb si sq

/-- `FB.LD n {bits}` (41_dsss.md R155); the capacity of 10_state.md R39 cannot fail for a well-formed command. -/
def execFbLd (payload : List Word) (s : State) : Host.Outcome State Fault Refusal :=
  s.perform <|
    if !payload.all isBitWord then .raise .invalidInput
    else if overCapacity payload.length then .raise .invalidInput
    else .finish { s with fbits := payload.map bitOfWord } .done

/-- `DSSS.SPREAD` (41_dsss.md R156): both registers are tested, then the capacity. -/
def execDsssSpread (s : State) : Host.Outcome State Fault Refusal :=
  s.perform <|
    if s.lfsrI = 0 ∨ s.lfsrQ = 0 then .raise .invalidSeed
    else if overCapacity (Config.chipsPerBit * ((s.fbits.length + 1) / 2)) then .raise .invalidInput
    else
      let r := spread s.fbits Config.chipsPerBit s.lfsrI s.lfsrQ
      .finish { s with ichip := r.iChips, qchip := r.qChips, lfsrI := r.stateI, lfsrQ := r.stateQ } .done

end Sys2Proof.Machine
end

