-- ==== Sys2Proof/Machine/Rrc.lean ====
section
/-! DEFINITION. The RRC pulse shaper (42_rrc.md): the pulse, the taps and the shaping as functions, then `RRC.TAPS`,
`RRC.SHAPEI`, `RRC.SHAPEQ`. Exact values are expressions over the reals; what is stored is `Config.num64` or
`Config.num32` of them (00_scope.md R16). -/

namespace Sys2Proof.Machine

/-! ### Expressions -/

/-- An integer as an expression. -/
def exprInt (n : Int) : RealExpr := .ratio n 1

/-- The sum of a list; the order of evaluation is the numerics record's (00_scope.md R16). -/
def exprSum (es : List RealExpr) : RealExpr := es.foldr .add (exprInt 0)

def exprSq (e : RealExpr) : RealExpr := .mul e e

/-! ### The pulse and the taps -/

/-- `h(0) = 1 - α + 4 α / π`, with `α = num / den` (42_rrc.md R167). -/
def pulseCentre (num den : Nat) : RealExpr :=
  .add (.ratio (den - num) den) (.div (.ratio (4 * num) den) .pi)

/-- `h(±1/(4α)) = (α/√2)·[(1 + 2/π)·sin(π/(4α)) + (1 - 2/π)·cos(π/(4α))]` (42_rrc.md R167). -/
def pulseSpecial (num den : Nat) : RealExpr :=
  let angle : RealExpr := .mul .pi (.ratio den (4 * num))
  let twoOverPi : RealExpr := .div (exprInt 2) .pi
  .mul (.div (.ratio num den) (.sqrt (exprInt 2)))
    (.add (.mul (.add (exprInt 1) twoOverPi) (.sin angle))
      (.mul (.sub (exprInt 1) twoOverPi) (.cos angle)))

/-- The general case, for `t = k / spc` chip periods:
`[sin(πt(1 - α)) + 4αt·cos(πt(1 + α))] / [πt(1 - (4αt)²)]` (42_rrc.md R167). -/
def pulseGeneral (num den : Nat) (k : Int) (spc : Nat) : RealExpr :=
  let piT : RealExpr := .mul .pi (.ratio k spc)
  let fourAlphaT : RealExpr := .ratio (4 * num * k) (den * spc)
  .div
    (.add (.sin (.mul piT (.ratio (den - num) den)))
      (.mul fourAlphaT (.cos (.mul piT (.ratio (den + num) den)))))
    (.mul piT (.sub (exprInt 1) (exprSq fourAlphaT)))

/-- The pulse at `k` samples from the centre, roll-off `num / den`. The special cases are chosen exactly: `t = 0` is
`k = 0`, and `|t| = 1/(4α)` is `4·num·|k| = den·spc` (42_rrc.md R167, R168). -/
def pulse (num den : Nat) (k : Int) (spc : Nat) : RealExpr :=
  if k = 0 then pulseCentre num den
  else if 4 * num * k.natAbs = den * spc then pulseSpecial num den
  else pulseGeneral num den k spc

/-- The un-normalised taps `raw[i] = h((i - H) / spc)`, `i = 0 .. 2H` (42_rrc.md R166, R169). -/
def rawTaps (num den H spc : Nat) : List RealExpr :=
  (List.range (2 * H + 1)).map fun i => pulse num den ((i : Int) - (H : Int)) spc

/-- `E = sqrt(sum of raw[i]²)` (42_rrc.md R169). -/
def tapNorm (raw : List RealExpr) : RealExpr := .sqrt (exprSum (raw.map exprSq))

/-- `rrc_taps(α, H, spc)`, exactly: `raw[i] / E` (42_rrc.md R169). -/
def exactTaps (num den H spc : Nat) : List RealExpr :=
  (rawTaps num den H spc).map fun r => .div r (tapNorm (rawTaps num den H spc))

/-- A tap set of unit energy: the centre tap 1, all others 0. It shows that the bound on taps can be met. -/
def centreTaps (H : Nat) : List F64 :=
  List.replicate H zero64 ++ one64 :: List.replicate H zero64

/-- The stored taps: the single tap `[1.0]` for `H = 0`, else the exact taps as stored by the numerics record, of unit
energy within the stated tolerance (42_rrc.md R169; log entries 7 and 10). -/
def storedTaps (H spc : Nat) : List F64 :=
  if H = 0 then [one64]
  else bounded unitEnergy ((exactTaps Config.alphaNum Config.alphaDen H spc).map Config.num64) (centreTaps H)

/-- The half-length `H` in samples (42_rrc.md R166). -/
def halfLength (unit : SpanUnit) (span spc : Nat) : Nat :=
  match unit with
  | .chips => span * spc
  | .samples => span

/-- The half-length of this CORE's tap set for its `SPAN` and `SPC` (42_rrc.md R166, R174). -/
def State.halfLength (s : State) : Nat := Machine.halfLength Config.spanUnit s.span.toNat s.spc.toNat

/-! ### Shaping -/

/-- A chip as a real number. -/
def chipValue : Chip → RealExpr
  | .plus => exprInt 1
  | .minus => exprInt (-1)

/-- Zero-stuffing: the chip stands at the first of its `spc` positions (42_rrc.md R170). -/
def upsample (chips : List Chip) (spc : Nat) : List RealExpr :=
  chips.flatMap fun c => (List.range spc).map fun j => if j = 0 then chipValue c else exprInt 0

/-- `x[n - k]` for tap index `i = H + k`, with `x[m] = 0` outside the sequence (42_rrc.md R171). -/
def convInput (x : List RealExpr) (H n i : Nat) : RealExpr :=
  if i ≤ n + H then (x[n + H - i]?).getD (exprInt 0) else exprInt 0

/-- "Same"-length convolution: `y[n] = sum of taps[H + k] · x[n - k]` over `k = -H .. H` (42_rrc.md R171). -/
def convSame (x taps : List RealExpr) : List RealExpr :=
  let H := taps.length / 2
  (List.range x.length).map fun n =>
    exprSum ((List.range taps.length).map fun i =>
      .mul ((taps[i]?).getD (exprInt 0)) (convInput x H n i))

/-- `shape(chips, taps, spc)`, exactly (42_rrc.md R172). -/
def exactShape (chips : List Chip) (taps : List RealExpr) (spc : Nat) : List RealExpr :=
  convSame (upsample chips spc) taps

/-- `shape` on stored taps, each output stored as binary32 (42_rrc.md R172). -/
def storedShape (chips : List Chip) (taps : List F64) (spc : Nat) : List F32 :=
  (exactShape chips (taps.map RealExpr.stored64) spc).map Config.num32

/-! ### The operations -/

/-- `RRC.TAPS` (42_rrc.md R174). -/
def execRrcTaps (s : State) : Host.Outcome State Fault Refusal :=
  s.perform <|
    if s.spc = 0 then .raise .configurationMismatch
    else if overCapacity (2 * s.halfLength + 1) then .raise .invalidInput
    else .finish { s with taps := storedTaps s.halfLength s.spc.toNat } .done

/-- `RRC.SHAPEI` (42_rrc.md R175): `SPC = 0` is tested before `TLEN = 0` (90_conflicts.md C11). -/
def execRrcShapei (s : State) : Host.Outcome State Fault Refusal :=
  s.perform <|
    if s.spc = 0 then .raise .configurationMismatch
    else if s.taps = [] then .raise .invalidInput
    else if overCapacity (s.ichip.length * s.spc.toNat) then .raise .invalidInput
    else .finish { s with ishp := storedShape s.ichip s.taps s.spc.toNat } .done

/-- `RRC.SHAPEQ` (42_rrc.md R176); it applies no delay. -/
def execRrcShapeq (s : State) : Host.Outcome State Fault Refusal :=
  s.perform <|
    if s.spc = 0 then .raise .configurationMismatch
    else if s.taps = [] then .raise .invalidInput
    else if overCapacity (s.qchip.length * s.spc.toNat) then .raise .invalidInput
    else .finish { s with qshp := storedShape s.qchip s.taps s.spc.toNat } .done

end Sys2Proof.Machine
end

