-- ==== Sys2Proof/Machine/Oqpsk.lean ====
section
/-! DEFINITION. The OQPSK modulator (43_oqpsk.md): the five steps as functions, then `OQPSK.MOD`. -/

namespace Sys2Proof.Machine

/-- The delay of the Q stream in samples: half a chip, by integer floor (43_oqpsk.md R187). -/
def offsetSamples (spc : Nat) : Nat := spc / 2

/-- The Q stream after the offset: leading zeros, then the stream (43_oqpsk.md R187). -/
def delayQ (spc : Nat) (qSig : List F32) : List F32 := List.replicate (offsetSamples spc) zero32 ++ qSig

/-- How many samples are kept: the common length of the I stream and the delayed Q stream (43_oqpsk.md R188). -/
def keptLength (nI nQ spc : Nat) : Nat := min (nI * spc) (nQ * spc + offsetSamples spc)

/-- Truncation and combining: `z[n] = i_sig[n] + j·q_del[n]` (43_oqpsk.md R188, R189). -/
def combine (iSig qDel : List F32) : List Sample := List.zipWith Sample.mk iSig qDel

/-- The magnitude of a pair of exact values (00_scope.md R13). -/
def exactMagnitude (re im : RealExpr) : RealExpr := .sqrt (.add (exprSq re) (exprSq im))

/-- `M`, the greatest magnitude of a stream of pairs, 0 when it is empty (43_oqpsk.md R190, R192). -/
def exactPeak (z : List (RealExpr × RealExpr)) : RealExpr :=
  z.foldr (fun p m => .max (exactMagnitude p.1 p.2) m) (exprInt 0)

/-- The exact value of a stored sample. -/
def sampleExpr (z : Sample) : RealExpr × RealExpr := (.stored32 z.re, .stored32 z.im)

/-- `out[n] = z[n] / M`, each part as stored by the numerics record; the imaginary part of the `D` injected offset
samples is exactly 0 (43_oqpsk.md R190, R191; log entry 10). -/
def normalised (spc : Nat) (z : List Sample) : List Sample :=
  let peak := exactPeak (z.map sampleExpr)
  z.mapIdx fun n v =>
    { re := Config.num32 (.div (.stored32 v.re) peak)
      im := if n < offsetSamples spc then zero32 else Config.num32 (.div (.stored32 v.im) peak) }

/-- A stream of peak magnitude 1: one carrier sample, then zeros. It shows that the bound on the peak can be met. -/
def peakWitness (n : Nat) : List Sample := carrierSample :: List.replicate (n - 1) zeroSample

/-- The normalised stream, of peak magnitude 1 within the stated tolerance (43_oqpsk.md R190; log entry 7). -/
def storedOutput (spc : Nat) (z : List Sample) : List Sample :=
  bounded unitPeak (normalised spc z) (peakWitness z.length)

/-- What a modulation leaves: the taps, the two shaped streams and the output (43_oqpsk.md R192). -/
structure Modulation where
  taps : List F64
  iSig : List F32
  qSig : List F32
  out : List Sample
deriving DecidableEq, Repr

/-- `oqpsk(i_chips, q_chips, taps, SPC)` with the taps it recomputes (43_oqpsk.md R186 to R190, R192). The shaped
streams are those `RRC.TAPS` and `RRC.SHAPEI`, `RRC.SHAPEQ` would store (log entry 9). -/
def modulate (ic qc : List Chip) (H spc : Nat) : Modulation :=
  let t := storedTaps H spc
  let iSig := storedShape ic t spc
  let qSig := storedShape qc t spc
  ⟨t, iSig, qSig, storedOutput spc (combine iSig (delayQ spc qSig))⟩

/-- `M = 0`: over the reals the peak of a shaped stream is 0 exactly when no sample is kept (43_oqpsk.md R190; log
entry 8). -/
def peakIsZero (ic qc : List Chip) (spc : Nat) : Bool := keptLength ic.length qc.length spc == 0

/-- `OQPSK.MOD` (43_oqpsk.md R192). -/
def execOqpskMod (s : State) : Host.Outcome State Fault Refusal :=
  s.perform <|
    if s.spc = 0 then .raise .configurationMismatch
    else if overCapacity (2 * s.halfLength + 1) || overCapacity (s.ichip.length * s.spc.toNat) ||
        overCapacity (s.qchip.length * s.spc.toNat + offsetSamples s.spc.toNat) then .raise .invalidInput
    else if peakIsZero s.ichip s.qchip s.spc.toNat then .raise .invalidInput
    else
      let m := modulate s.ichip s.qchip s.halfLength s.spc.toNat
      .finish ({ s with taps := m.taps, ishp := m.iSig, qshp := m.qSig }.setOutput m.out) .done

end Sys2Proof.Machine
end

