-- ==== Sys2Proof/Machine/Frame.lean ====
section
/-! DEFINITION. The frame assembler (45_frame.md): the frame bits and the assembly as functions, then `MSG.LDB`,
`MSG.LDBITS`, `FRM.BUILD`, `ASM`, `PULL`, `REWIND`. -/

namespace Sys2Proof.Machine

/-! ### Loading the message -/

/-- `MSG.LDB n {bytes}` (45_frame.md R211). -/
def execMsgLdb (payload : List Word) (s : State) : Host.Outcome State Fault Refusal :=
  s.perform <|
    if !payload.all isByteWord then .raise .invalidInput
    else if overCapacity (8 * payload.length) then .raise .invalidInput
    else .finish { s with mbits := bitsOfBytes payload } .done

/-- `MSG.LDBITS n {bits}` (45_frame.md R212); the capacity of 10_state.md R39 cannot fail for a well-formed command. -/
def execMsgLdbits (payload : List Word) (s : State) : Host.Outcome State Fault Refusal :=
  s.perform <|
    if !payload.all isBitWord then .raise .invalidInput
    else if overCapacity payload.length then .raise .invalidInput
    else .finish { s with mbits := payload.map bitOfWord } .done

/-! ### The frame bits -/

/-- The 1G frame-sync pattern of the mode (30_encoding.md R92; 45_frame.md R214). -/
def syncPattern (test : Bool) : List Bool := if test then Config.syncSelfTest else Config.syncNormal

/-- `frame_bits(gen, test, m)` (45_frame.md R214). -/
def frameBits (gen : Generation) (test : Bool) (m : List Bool) : List Bool :=
  match gen with
  | .g1 => List.replicate Config.preamble1G true ++ syncPattern test ++ m
  | .g2 => List.replicate Config.preamble2G false ++ m

/-- The message has the length its generation needs: a whole number of bytes in 1G, 250 bits in 2G (45_frame.md R215,
R216). -/
def messageLengthOk (gen : Generation) (n : Nat) : Bool :=
  match gen with
  | .g1 => n % 8 == 0
  | .g2 => n == Config.message2G

/-- `FRM.BUILD` (45_frame.md R217); then the capacity (10_state.md R39; log entry 12). -/
def execFrmBuild (s : State) : Host.Outcome State Fault Refusal :=
  s.perform <|
    if !messageLengthOk s.gen s.mbits.length then .raise .invalidInput
    else if overCapacity (frameBits s.gen s.test s.mbits).length then .raise .invalidInput
    else .finish { s with fbits := frameBits s.gen s.test s.mbits } .done

/-! ### Assembly -/

/-- `assemble_1g(fb)` (45_frame.md R218). -/
def assemble1G (fb : List Bool) : List Sample :=
  List.replicate Config.carrierSamples carrierSample ++ fb.flatMap modulateBit

/-- The seeds of the mode, I then Q (45_frame.md R222). -/
def State.seeds (s : State) : LfsrState × LfsrState :=
  if s.test then (s.seedIT, s.seedQT) else (s.seedIN, s.seedQN)

/-- The 1G half of `ASM` (45_frame.md R220); the capacity (10_state.md R39) comes after the length (log entry 12). -/
def asm1G (s : State) : Effect :=
  if !messageLengthOk .g1 s.mbits.length then .raise .invalidInput
  else
    let fb := frameBits .g1 s.test s.mbits
    if overCapacity fb.length || overCapacity (assemble1G fb).length then .raise .invalidInput
    else .finish ({ s with fbits := fb }.setOutput (assemble1G fb)) .done

/-- The 2G half of `ASM` (45_frame.md R219, R220): length, capacity, `SPC`, seeds, peak, in that order. -/
def asm2G (s : State) : Effect :=
  if !messageLengthOk .g2 s.mbits.length then .raise .invalidInput
  else if overCapacity (2 * s.halfLength + 1) then .raise .invalidInput
  else if s.spc = 0 then .raise .configurationMismatch
  else if s.seeds.1 = 0 ∨ s.seeds.2 = 0 then .raise .invalidSeed
  else
    let fb := frameBits .g2 s.test s.mbits
    let c := spread fb Config.chipsPerBit s.seeds.1 s.seeds.2
    if peakIsZero c.iChips c.qChips s.spc.toNat then .raise .invalidInput
    else
      let m := modulate c.iChips c.qChips s.halfLength s.spc.toNat
      .finish
        ({ s with
            fbits := fb
            ichip := c.iChips
            qchip := c.qChips
            lfsrI := c.stateI
            lfsrQ := c.stateQ
            taps := m.taps
            ishp := m.iSig
            qshp := m.qSig }.setOutput m.out) .done

/-- `ASM` (45_frame.md R220): the generation selects the path. -/
def execAsm (s : State) : Host.Outcome State Fault Refusal :=
  s.perform <|
    match s.gen with
    | .g1 => asm1G s
    | .g2 => asm2G s

/-! ### Playback -/

/-- The `n` samples of the output from index `at` on, wrapping at its end (45_frame.md R226). -/
def cyclicChunk (out : List Sample) (start n : Nat) : List Sample :=
  (List.range n).map fun j => (out[(start + j) % out.length]?).getD zeroSample

/-- The samples of the output from an index on, padded with zeros to `n` (45_frame.md R227). -/
def finiteChunk (out : List Sample) (start n : Nat) : List Sample :=
  (out.drop start).take n ++ List.replicate (n - min n (out.length - start)) zeroSample

/-- `PULL` in cyclic playback (45_frame.md R226). -/
def pullCyclic (n : Nat) (s : State) : Effect :=
  .finish { s with rdidx := BitVec.ofNat 32 ((s.rdidx.toNat + n) % s.obuf.length) }
    (.ok false ((cyclicChunk s.obuf s.rdidx.toNat n).flatMap sampleWords))

/-- `PULL` in finite playback (45_frame.md R227): the end-of-stream signal is raised by the chunk that delivers the
last sample, once. -/
def pullFinite (n : Nat) (s : State) : Effect :=
  let next := s.rdidx.toNat + min n (s.obuf.length - s.rdidx.toNat)
  let atEnd := next == s.obuf.length && !s.eos
  .finish { s with rdidx := BitVec.ofNat 32 next, eos := s.eos || atEnd }
    (.ok atEnd ((finiteChunk s.obuf s.rdidx.toNat n).flatMap sampleWords))

/-- `PULL n` (45_frame.md R225). -/
def execPull (n : Operand) (s : State) : Host.Outcome State Fault Refusal :=
  s.perform <|
    if s.ready = false then .raise .invalidInput
    else if s.cyclic then pullCyclic n.toNat s
    else pullFinite n.toNat s

/-- `REWIND` (45_frame.md R229). -/
def execRewind (s : State) : Host.Outcome State Fault Refusal :=
  s.perform <|
    if s.ready = false then .raise .invalidInput
    else .finish { s with rdidx := 0, eos := false } .done

end Sys2Proof.Machine
end

