-- ==== Sys2Proof/Machine/System.lean ====
section
/-! DEFINITION. The system operations (46_system.md): `RESET`, `CSR.WR`, `CSR.RD`, `BUF.RD`, `SELFCHK`, `VERIFY`. -/

namespace Sys2Proof.Machine

/-- `RESET` (46_system.md R251); accepted while faulted (60_exceptions.md R277). -/
def execReset (s : State) : Host.Outcome State Fault Refusal :=
  s.performAlways (.finish s.restart .done)

/-- `CSR.WR r {v}`, the tests in the order written (46_system.md R252). -/
def execCsrWr (r : Operand) (v : Word) (s : State) : Host.Outcome State Fault Refusal :=
  s.perform <|
    if 16 < r.toNat then .raise .invalidInput
    else if 7 ≤ r.toNat then .raise .invalidInput
    else if s.ready then .raise .invalidInput
    else if !csrReservedClear r.toNat v then .raise .invalidInput
    else if isSeedCsr r.toNat && !seedWordInRange v then .raise .invalidSeed
    else .finish (csrWrite r.toNat v s) .done

/-- `CSR.RD r` (46_system.md R253); accepted while faulted (60_exceptions.md R277). -/
def execCsrRd (r : Operand) (s : State) : Host.Outcome State Fault Refusal :=
  s.performAlways <|
    if 16 < r.toNat then .raise .invalidInput
    else s.finishResult (csrRead r.toNat s)

/-- `BUF.RD sel` (46_system.md R254); accepted while faulted. It changes nothing, `RES` included (log entry 13). -/
def execBufRd (sel : Operand) (s : State) : Host.Outcome State Fault Refusal :=
  s.performAlways <|
    if 7 < sel.toNat then .raise .invalidInput
    else .finish s (.ok false (lengthWord (bufferLength sel.toNat s) :: bufferElements sel.toNat s))

/-- `SELFCHK` (46_system.md R255): the constant seed against the reference vector. -/
def execSelfchk (s : State) : Host.Outcome State Fault Refusal :=
  s.perform <|
    if first64 Config.seedINormal ≠ Config.ref64 then .raise .verificationFailure
    else s.finishResult 1

/-- `VERIFY seed {hi, lo}` (46_system.md R256). -/
def execVerify (seed : Operand) (hi lo : Word) (s : State) : Host.Outcome State Fault Refusal :=
  s.perform <|
    if !seedInRange seed then .raise .invalidSeed
    else if first64 (seedOf seed) ≠ hi ++ lo then .raise .verificationFailure
    else s.finishResult 1

end Sys2Proof.Machine
end

