-- ==== Sys2Proof/Machine/Dispatch.lean ====
section
/-! DEFINITION. The dispatch: one arm for each operation of 30_encoding.md rule R113, each one call of its meaning. -/

namespace Sys2Proof.Machine

/-- The effect of one operation (46_system.md, 40_lfsr.md to 45_frame.md). -/
def exec (i : Instr) (s : State) : Host.Outcome State Fault Refusal :=
  match i with
  | .reset => Sys2Proof.Machine.execReset s
  | .csrWr r v => Sys2Proof.Machine.execCsrWr r v s
  | .csrRd r => Sys2Proof.Machine.execCsrRd r s
  | .bufRd sel => Sys2Proof.Machine.execBufRd sel s
  | .lfsrLdi seed => Sys2Proof.Machine.execLfsrLdi seed s
  | .lfsrLdq seed => Sys2Proof.Machine.execLfsrLdq seed s
  | .lfsrStepi => Sys2Proof.Machine.execLfsrStepi s
  | .lfsrStepq => Sys2Proof.Machine.execLfsrStepq s
  | .lfsrGeni n => Sys2Proof.Machine.execLfsrGeni n s
  | .lfsrGenq n => Sys2Proof.Machine.execLfsrGenq n s
  | .fbLd payload => Sys2Proof.Machine.execFbLd payload s
  | .dsssSpread => Sys2Proof.Machine.execDsssSpread s
  | .rrcTaps => Sys2Proof.Machine.execRrcTaps s
  | .rrcShapei => Sys2Proof.Machine.execRrcShapei s
  | .rrcShapeq => Sys2Proof.Machine.execRrcShapeq s
  | .oqpskMod => Sys2Proof.Machine.execOqpskMod s
  | .bplBit b => Sys2Proof.Machine.execBplBit b s
  | .msgLdb payload => Sys2Proof.Machine.execMsgLdb payload s
  | .msgLdbits payload => Sys2Proof.Machine.execMsgLdbits payload s
  | .frmBuild => Sys2Proof.Machine.execFrmBuild s
  | .asm => Sys2Proof.Machine.execAsm s
  | .pull n => Sys2Proof.Machine.execPull n s
  | .rewind => Sys2Proof.Machine.execRewind s
  | .selfchk => Sys2Proof.Machine.execSelfchk s
  | .verify seed hi lo => Sys2Proof.Machine.execVerify seed hi lo s

end Sys2Proof.Machine
end

