-- ==== Sys2Proof/Machine/Step.lean ====
section
/-! DEFINITION. One step of CORE: the reset input if it is asserted, else the next whole command of the port (10_state.md
R20, R24; 20_memory.md R70; log entries 1 and 3). -/

namespace Sys2Proof.Machine

/-- One step. A reset happens between two operations (70_reset_and_hazards.md R310); otherwise the first whole command
of the port is taken from it, payload included, and run or rejected (30_encoding.md R102, R104); while no whole command
has arrived, nothing happens. -/
def step (s : State) : Host.Outcome State Fault Refusal :=
  if s.resetIn then .next s.resetByInput
  else
    match decode s.port with
    | .command i rest => exec i { s with port := rest }
    | .rejected _ rest => rejectCommand { s with port := rest }
    | .incomplete => .next s

/-- `s` with the command whose bits are `w` sent ahead of every other word, and the reset input not asserted. -/
def State.withFetchWord (s : State) (nbits w : Nat) : State :=
  { s with port := tableWords nbits w ++ s.port, resetIn := false }

end Sys2Proof.Machine
end

