-- ==== Sys2Proof/Machine/HostSide.lean ====
section
/-! DEFINITION. The host's side of the interface: the pseudo-operations of 30_encoding.md rule R118, and the host duties
the spec describes (20_memory.md R67, 45_frame.md R213, 60_exceptions.md R273). `step` uses none of it. -/

namespace Sys2Proof.Machine

/-- Send commands: their words join the end of the command port (30_encoding.md R100). -/
def State.send (s : State) (commands : List Instr) : State :=
  { s with port := s.port ++ commands.flatMap encode }

/-- A value for `CFG` (10_state.md R27). -/
def cfgValue (gen : Generation) (test cyclic : Bool) : Word :=
  (match gen with
    | .g1 => 0
    | .g2 => 1) + (if test then 2 else 0) + (if cyclic then 4 else 0)

/-- `GEN1G bytes, test, repeat` (30_encoding.md R118). -/
def gen1G (bytes : List Word) (test cyclic : Bool) : List Instr :=
  [.reset, .csrWr 0 (cfgValue .g1 test cyclic), .msgLdb bytes, .asm]

/-- `GEN2G bits, spc, test, repeat` (30_encoding.md R118). -/
def gen2G (bits : List Word) (spc : Word) (test cyclic : Bool) : List Instr :=
  [.reset, .csrWr 0 (cfgValue .g2 test cyclic), .csrWr 1 spc, .msgLdbits bits, .asm]

/-- `CHIPS64 seed` (30_encoding.md R118). -/
def chips64 (seed : Operand) : List Instr := [.lfsrLdi seed, .lfsrGeni 64, .bufRd 2]

/-- The four bits of a hexadecimal digit, most significant first (45_frame.md R213). -/
def bitsOfDigit (d : BitVec 4) : List Bool := [d.getLsbD 3, d.getLsbD 2, d.getLsbD 1, d.getLsbD 0]

/-- The 250 bits of the 252 that the host keeps (45_frame.md R213). -/
def dropPad (pad : HexPad) (bits : List Bool) : List Bool :=
  match pad with
  | .leading => bits.drop 2
  | .trailing => bits.take 250

/-- The 2G message of a string of 63 hexadecimal digits; any other length is malformed (45_frame.md R213). -/
def hexMessage (digits : List (BitVec 4)) : Option (List Bool) :=
  if digits.length = 63 then some (dropPad Config.hexPad (digits.flatMap bitsOfDigit)) else none

/-- The value of `SPC` for a sample rate in whole hertz (log entry 22): 0 for a rate that has none (60_exceptions.md
R273). -/
def spcForRate (hertz : Nat) : BitVec 16 := (Config.spcOfRate hertz).getD 0

/-- The bytes of a 32-bit value in the sample file: `FILE_ENDIAN` is little-endian (20_memory.md R67). -/
def fileWordBytes (x : F32) : List (BitVec 8) :=
  [x.extractLsb' 0 8, x.extractLsb' 8 8, x.extractLsb' 16 8, x.extractLsb' 24 8]

/-- The bytes of a sample file: real part then imaginary part of each sample in order (20_memory.md R66, R67). -/
def fileBytes (samples : List Sample) : List (BitVec 8) :=
  samples.flatMap fun z => fileWordBytes z.re ++ fileWordBytes z.im

end Sys2Proof.Machine
end

