-- ==== Sys2Proof/Safety.lean ====
section
/-! DEFINITION. The terms claims use: the real number an exact value is, the reading of bits from a generator, and the
invariant of CORE's state. -/

namespace Sys2Proof

open Sys2Proof.Machine

/-- The real number an expression stands for. A stored pattern that is no finite number counts as 0. -/
noncomputable def RealExpr.value : RealExpr → ℝ
  | .ratio num den => (num : ℝ) / (den : ℝ)
  | .pi => Real.pi
  | .stored64 x => if finite64 x then (scaled64 x : ℝ) / 2 ^ 1074 else 0
  | .stored32 x => if finite32 x then (scaled32 x : ℝ) / 2 ^ 149 else 0
  | .add a b => a.value + b.value
  | .sub a b => a.value - b.value
  | .mul a b => a.value * b.value
  | .div a b => a.value / b.value
  | .max a b => Max.max a.value b.value
  | .sqrt a => Real.sqrt a.value
  | .sin a => Real.sin a.value
  | .cos a => Real.cos a.value

/-- The RRC pulse at time `t` in chip periods, roll-off 4/5, as 42_rrc.md R167 writes it: the closed form, with its two
removable singularities `t = 0` and `|t| = 1/(4α) = 5/16` given their own values. -/
noncomputable def rrcPulse (t : ℝ) : ℝ :=
  let α : ℝ := 4 / 5
  if t = 0 then 1 - α + 4 * α / Real.pi
  else if |t| = 1 / (4 * α) then
    α / Real.sqrt 2 * ((1 + 2 / Real.pi) * Real.sin (Real.pi / (4 * α)) +
      (1 - 2 / Real.pi) * Real.cos (Real.pi / (4 * α)))
  else
    (Real.sin (Real.pi * t * (1 - α)) + 4 * α * t * Real.cos (Real.pi * t * (1 + α))) /
      (Real.pi * t * (1 - (4 * α * t) ^ 2))

namespace Machine

/-- The state of a generator after `n` steps from `s`. -/
def stateAfter (s : LfsrState) (n : Nat) : LfsrState := (advance)^[n] s

/-- Output bit `k` of a generator started from `s`, `a[k]` of 40_lfsr.md R133. -/
def outputBit (s : LfsrState) (k : Nat) : Bool := (stateAfter s k).getLsbD 0

/-- The exact shaped streams of the two channels, combined with the offset and cut to the common length: `z` of
43_oqpsk.md R189 over the reals, from the exact taps. -/
def exactStream (ic qc : List Chip) (H spc : Nat) : List (RealExpr × RealExpr) :=
  let t := exactTaps Config.alphaNum Config.alphaDen H spc
  List.zip (exactShape ic t spc) (List.replicate (offsetSamples spc) (exprInt 0) ++ exactShape qc t spc)

/-- The number of elements of every buffer is below the capacity (10_state.md R39). -/
def State.buffersFit (s : State) : Prop :=
  s.taps.length < Config.capacity ∧ s.mbits.length < Config.capacity ∧ s.fbits.length < Config.capacity ∧
    s.ichip.length < Config.capacity ∧ s.qchip.length < Config.capacity ∧ s.ishp.length < Config.capacity ∧
    s.qshp.length < Config.capacity ∧ s.obuf.length < Config.capacity

/-- The invariant of CORE's state. -/
structure State.Inv (s : State) : Prop where
  /-- An output is held exactly when `READY` says so (60_exceptions.md R279). -/
  ready_iff : s.ready = true ↔ s.obuf ≠ []
  /-- With no output, playback stands at its start (10_state.md R24, R25). -/
  idle : s.ready = false → s.rdidx = 0 ∧ s.eos = false
  /-- A faulted CORE holds no output (60_exceptions.md R275, R279). -/
  faulted : s.err ≠ none → s.ready = false
  /-- `0 ≤ RDIDX ≤ OLEN` (10_state.md R24). -/
  rdidx_le : s.rdidx.toNat ≤ s.obuf.length
  /-- In cyclic playback `RDIDX` never reaches `OLEN` and `EOS` is never set (10_state.md R24; 45_frame.md R226). -/
  cyclic : s.ready = true → s.cyclic = true → s.rdidx.toNat < s.obuf.length ∧ s.eos = false
  /-- In finite playback `RDIDX = OLEN` exactly when `EOS = 1` (45_frame.md R227). -/
  finite : s.ready = true → s.cyclic = false → (s.rdidx.toNat = s.obuf.length ↔ s.eos = true)
  /-- The greatest magnitude of the output is 1 within 1e-5 (10_state.md R38). -/
  peak : s.ready = true → unitPeak s.obuf = true
  /-- Taps are those of the current `SPC` and `SPAN`: of odd length `2H + 1` and of unit energy within 1e-6 (10_state.md
  R36; 42_rrc.md R169, R175). -/
  taps : s.taps ≠ [] → s.spc ≠ 0 ∧ s.taps.length = 2 * s.halfLength + 1 ∧ unitEnergy s.taps = true
  /-- 10_state.md R39. -/
  fit : s.buffersFit
  /-- The normal-mode I seed is never 0: it resets to 1 and 0 cannot be written (10_state.md R30). -/
  seed : s.seedIN ≠ 0

end Machine

end Sys2Proof
end

