-- ==== Sys2Proof/Certificates/Slice0/Obligations.lean ====
section
/-! DEFINITION. The statements for the provers. In each, an equation `exec i s = .next { s with … }` says both what the
operation changes and that it changes nothing else. `s.enterError k` is error entry with kind `k`, which
`Obligations.FailedOperationWritesOnlyTheErrorState` writes out. -/

open Sys2Proof Sys2Proof.Machine

/-! ### Encoding -/

/-- The opcode map of 30_encoding.md R113, row by row: mnemonic, match and mask; a row selects a word when
`(w and mask) = match`; every instruction's command word is selected by the row with its operation code. -/
def Obligations.OpcodeMapIsTheSpecsTable : Prop :=
  (opTable.map fun r => (r.mnemonic, r.pattern, r.mask)) =
    [("RESET", 0x01000000, 0xFFFFFFFF), ("CSR.WR", 0x02000000, 0xFF000000), ("CSR.RD", 0x03000000, 0xFF000000),
     ("BUF.RD", 0x04000000, 0xFF000000), ("LFSR.LDI", 0x10000000, 0xFF000000), ("LFSR.LDQ", 0x11000000, 0xFF000000),
     ("LFSR.STEPI", 0x12000000, 0xFFFFFFFF), ("LFSR.STEPQ", 0x13000000, 0xFFFFFFFF),
     ("LFSR.GENI", 0x14000000, 0xFF000000), ("LFSR.GENQ", 0x15000000, 0xFF000000), ("FB.LD", 0x20000000, 0xFF000000),
     ("DSSS.SPREAD", 0x21000000, 0xFFFFFFFF), ("RRC.TAPS", 0x30000000, 0xFFFFFFFF),
     ("RRC.SHAPEI", 0x31000000, 0xFFFFFFFF), ("RRC.SHAPEQ", 0x32000000, 0xFFFFFFFF),
     ("OQPSK.MOD", 0x40000000, 0xFFFFFFFF), ("BPL.BIT", 0x50000000, 0xFF000000), ("MSG.LDB", 0x60000000, 0xFF000000),
     ("MSG.LDBITS", 0x61000000, 0xFF000000), ("FRM.BUILD", 0x62000000, 0xFFFFFFFF), ("ASM", 0x63000000, 0xFFFFFFFF),
     ("PULL", 0x70000000, 0xFF000000), ("REWIND", 0x71000000, 0xFFFFFFFF), ("SELFCHK", 0x7E000000, 0xFFFFFFFF),
     ("VERIFY", 0x7F000000, 0xFF000000)] ∧
  (∀ (r : OpRow) (w : Word), r.selects w = true ↔ w &&& r.mask = r.pattern) ∧
  (∀ i : Instr, ∃ r ∈ opTable, r.op = i.opcode ∧ r.selects (cmdWord i.opcode i.operand) = true)

/-- A few command words of 95_test_vectors.md V-E1 decode to the commands they are written for. -/
def Obligations.WrittenWordsDecodeToTheirCommands : Prop :=
  decode [0x01000000] = .command .reset [] ∧
  decode [0x02000001, 0x0000000A] = .command (.csrWr 1 10) [] ∧
  decode [0x111AC3FC] = .command (.lfsrLdq 0x1AC3FC) [] ∧
  decode [0x20000004, 1, 0, 0, 1, 0x21000000] = .command (.fbLd [1, 0, 0, 1]) [0x21000000] ∧
  decode [0x40000000] = .command .oqpskMod [] ∧
  decode [0x60000001, 0x000000FF, 0x63000000] = .command (.msgLdb [0xFF]) [0x63000000] ∧
  decode [0x70000400] = .command (.pull 1024) [] ∧
  decode [0x7F000001, 0x80000108, 0x421284A1] = .command (.verify 1 0x80000108 0x421284A1) []

/-- Decoding what a well-formed instruction encodes to gives it back, with every operand at every value. -/
def Obligations.DecodeOfEncodeIsTheInstruction : Prop :=
  ∀ (i : Instr) (rest : List Word), i.wf = true → decode (encode i ++ rest) = .command i rest

/-- Each list of words stands for at most one command: what decodes is the encoding of the instruction decoded, and that
instruction is well-formed. -/
def Obligations.EncodeOfDecodeIsTheWords : Prop :=
  ∀ (ws rest : List Word) (i : Instr), decode ws = .command i rest → i.wf = true ∧ ws = encode i ++ rest

/-- A command word is rejected exactly when no row of the opcode map selects it, and no word is selected by two rows. -/
def Obligations.WordIsRejectedExactlyWhenNoRowSelectsIt : Prop :=
  ∀ w : Word,
    ((∃ why, ∀ rest, decode (w :: rest) = .rejected why rest) ↔ ∀ r ∈ opTable, r.selects w = false) ∧
    (opTable.filter fun r => r.selects w).length ≤ 1

/-! ### The step -/

/-- A step at a state whose port holds a whole command takes that command from the port and is `exec` of it. -/
def Obligations.StepRunsTheDecodedCommand : Prop :=
  ∀ (s : State) (i : Instr) (rest : List Word), s.resetIn = false → decode s.port = .command i rest →
    step s = exec i { s with port := rest }

/-- An illegal command word raises `InvalidInput`, has no payload and writes nothing but the error state; in a faulted
CORE it is refused with the latched kind. -/
def Obligations.IllegalWordRaisesInvalidInput : Prop :=
  ∀ (s : State) (w : Word) (rest : List Word), s.resetIn = false → s.port = w :: rest →
    (∀ r ∈ opTable, r.selects w = false) →
    (s.err = none →
      step s = .next { s with port := rest, err := some .invalidInput, obuf := [], ready := false, eos := false,
                              rdidx := 0, resp := some (.error .invalidInput) }) ∧
    (∀ k, s.err = some k → step s = .next { s with port := rest, resp := some (.error k) })

/-- Whatever a command does (complete, raise an error, be refused), it takes exactly its payload from the port, so the
next word is again a command word. The payload count is that of 30_encoding.md R102. -/
def Obligations.EveryCommandConsumesItsPayload : Prop :=
  ∀ (s : State) (w : Word) (ws : List Word) (n : Nat), s.resetIn = false → s.port = w :: ws →
    n = (if w >>> 24 = 0x02 then 1 else if w >>> 24 = 0x7F then 2
         else if w >>> 24 = 0x60 ∨ w >>> 24 = 0x61 ∨ w >>> 24 = 0x20 then (w &&& 0x00FFFFFF).toNat else 0) →
    n ≤ ws.length → ∃ t, step s = .next t ∧ t.port = ws.drop n

/-- THE MODEL'S CHOICE (log entry 1): while the port holds no whole command, a step changes nothing. -/
def Obligations.StepWaitsForAWholeCommand : Prop :=
  ∀ (s : State), s.resetIn = false →
    (s.port = [] ∨ ∃ w ws, s.port = w :: ws ∧ ws.length < payloadCount w) → step s = .next s

/-- The reset input has the effect of `RESET` on every piece of CORE's state, and the words on the port stay. That it
is taken before the next command and answers no response is the model's choice (log entry 3). -/
def Obligations.ResetInputHasTheEffectOfReset : Prop :=
  ∀ s : State, s.resetIn = true →
    ∃ t u, step s = .next t ∧ exec .reset s = .next u ∧ t = { u with resp := none, resetIn := false } ∧
      t.port = s.port

/-! ### Reset and the invariant -/

/-- After `RESET`, from any state, faulted or not, every piece of state has its reset value (10_state.md R41; 46_system.md R251). The
first three fields are the model's own, and that `RESET` keeps the words on the port and the reset input is the model's
choice (log entries 1 to 3). -/
def Obligations.ResetGivesEveryRegisterItsResetValue : Prop :=
  ∀ s : State, exec .reset s = .next
    { port := s.port, resetIn := s.resetIn, resp := some (.ok false []),
      lfsrI := 0, lfsrQ := 0, res := 0, rdidx := 0, ready := false, eos := false, err := none,
      cfg := 0, spc := 0, span := 31, seedIN := 0x000001,
      seedQN := Config.seedQN, seedIT := Config.seedIT, seedQT := Config.seedQT,
      taps := [], mbits := [], fbits := [], ichip := [], qchip := [], ishp := [], qshp := [], obuf := [] }

/-- The state after reset satisfies the invariant. -/
def Obligations.ResetStateSatisfiesTheInvariant : Prop := State.reset.Inv

/-- Every step keeps the invariant: an output exists exactly when `READY` is set and never in a faulted CORE, its peak is
1 within 1e-5, `RDIDX` stays within it, `EOS` is set exactly at the end of a finite playback, taps have odd length `2H + 1`
for the current `SPC` and `SPAN` and unit energy within 1e-6, and every buffer fits. The two tolerances hold by log entry
7. -/
def Obligations.EveryStepKeepsTheInvariant : Prop :=
  ∀ s t : State, s.Inv → step s = .next t → t.Inv

/-! ### Errors and the faulted state -/

/-- An operation that raises an error writes none of its destinations: the state after it is the state before it with
`ERR` latched, `OBUF`, `READY`, `EOS` and `RDIDX` cleared, and the error as its response (60_exceptions.md R275). A step
that runs the operation ends there too: what it leaves on the port is what follows the command and its payload. -/
def Obligations.FailedOperationWritesOnlyTheErrorState : Prop :=
  ∀ (i : Instr) (s t : State) (k : ErrKind), s.err = none → exec i s = .next t → t.err = some k →
    t = { s with err := some k, obuf := [], ready := false, eos := false, rdidx := 0, resp := some (.error k) } ∧
    s.enterError k = t ∧
    ∀ (u : State) (rest : List Word), s = { u with port := rest } → u.resetIn = false →
      decode u.port = .command i rest → step u = .next t

/-- While faulted, every operation but `RESET`, `CSR.RD` and `BUF.RD` is refused: it changes no state and responds with
the latched kind. `RESET` ends the fault; `CSR.RD` and `BUF.RD` keep `ERR` whatever they do. That `BUF.RD` leaves `RES` too,
and that these two answer a reserved operand with `InvalidInput`, are the model's readings (log entries 13 and 14). -/
def Obligations.FaultedCoreRefusesAllButThreeOperations : Prop :=
  ∀ (i : Instr) (s : State) (k : ErrKind), s.err = some k →
    (i ≠ .reset → (∀ r, i ≠ .csrRd r) → (∀ sel, i ≠ .bufRd sel) →
      exec i s = .next { s with resp := some (.error k) }) ∧
    (∃ t, exec .reset s = .next t ∧ t.err = none) ∧
    (∀ r : Operand, r.toNat ≤ 16 → ∃ v, exec (.csrRd r) s = .next { s with res := v, resp := some (.ok false [v]) }) ∧
    (∀ r : Operand, 16 < r.toNat → exec (.csrRd r) s = .next { s with resp := some (.error .invalidInput) }) ∧
    (∀ sel : Operand, sel.toNat ≤ 7 → ∃ ws, exec (.bufRd sel) s = .next { s with resp := some (.ok false ws) }) ∧
    (∀ sel : Operand, 7 < sel.toNat → exec (.bufRd sel) s = .next { s with resp := some (.error .invalidInput) })

/-- CORE becomes ready only by `ASM`, `OQPSK.MOD` or `BPL.BIT`, and leaves the faulted state only by `RESET`. -/
def Obligations.OnlyThreeOperationsMakeCoreReady : Prop :=
  ∀ (i : Instr) (s t : State), exec i s = .next t →
    (s.ready = false → t.ready = true → s.err = none ∧ (i = .asm ∨ i = .oqpskMod ∨ ∃ b, i = .bplBit b)) ∧
    (s.err ≠ none → t.err = none → i = .reset)

/-- The output buffer changes only by an operation that writes it, by an error, or by reset. -/
def Obligations.OutputBufferIsWrittenByThreeOperationsOnly : Prop :=
  ∀ (i : Instr) (s t : State), exec i s = .next t → t.obuf ≠ s.obuf →
    i = .asm ∨ i = .oqpskMod ∨ (∃ b, i = .bplBit b) ∨ i = .reset ∨ (s.err = none ∧ t.err ≠ none)

/-- `RES` is written only by the operations that return a scalar result, and by reset; they return the same word. -/
def Obligations.ResultRegisterHoldsTheScalarReturned : Prop :=
  ∀ (i : Instr) (s t : State), exec i s = .next t → t.res ≠ s.res →
    (i = .reset ∧ t.res = 0) ∨
    ((i = .lfsrStepi ∨ i = .lfsrStepq ∨ (∃ r, i = .csrRd r) ∨ i = .selfchk ∨ (∃ a hi lo, i = .verify a hi lo)) ∧
      t.resp = some (.ok false [t.res]))

/-- The end-of-stream event is raised only by a `PULL` in finite playback that reaches the end while `EOS` is clear, and
that `PULL` sets `EOS`. -/
def Obligations.EndOfStreamIsRaisedOnlyByTheLastPull : Prop :=
  ∀ (i : Instr) (s t : State) (data : List Word), s.Inv → exec i s = .next t → t.resp = some (.ok true data) →
    (∃ n, i = .pull n) ∧ s.ready = true ∧ s.cyclic = false ∧ s.eos = false ∧ t.eos = true ∧
      t.rdidx.toNat = s.obuf.length

/-- An operation neither reads nor changes the words the host has sent, and its effect does not depend on the response
before it: it answers one response, a function of CORE's state and the operation alone. The words of a response
(30_encoding.md R108): a header with `E` in bit 31, `S` in bit 30 and the kind in bits 2:0, then the data words; after an
error none. That the state holds the last response is the model's choice (log entry 2). -/
def Obligations.EffectDependsOnStateAndOperandsOnly : Prop :=
  (∀ (endOfStream : Bool) (data : List Word), (Response.ok endOfStream data).words =
    (if endOfStream then 0x40000000 else 0x00000000) :: data) ∧
  (Response.error .invalidInput).words = [0x80000001] ∧
  (Response.error .invalidSeed).words = [0x80000002] ∧
  (Response.error .configurationMismatch).words = [0x80000003] ∧
  (Response.error .verificationFailure).words = [0x80000004] ∧
  ∀ (i : Instr) (s t : State) (port : List Word) (resp : Option Response), exec i s = .next t →
    t.port = s.port ∧ (∃ r, t.resp = some r) ∧ exec i { s with port := port, resp := resp } = .next { t with port := port }

/-! ### Configuration registers and read-out -/

/-- `CSR.WR r {v}` (46_system.md R252): the errors in the order tested, and the register written; a write to `SPC` or
`SPAN` empties `TAPS`. -/
def Obligations.CsrWriteSetsTheRegisterOrRefuses : Prop :=
  (∀ (r : Operand) (v : Word), encode (.csrWr r v) = [(0x02#8 ++ r : BitVec 32), v]) ∧
  ∀ (s : State) (r : Operand) (v : Word), s.err = none →
    (7 ≤ r.toNat ∨ s.ready = true → exec (.csrWr r v) s = .next (s.enterError .invalidInput)) ∧
    (s.ready = false →
      (r = 0 → 8 ≤ v.toNat → exec (.csrWr r v) s = .next (s.enterError .invalidInput)) ∧
      (r = 1 ∨ r = 2 → 65536 ≤ v.toNat → exec (.csrWr r v) s = .next (s.enterError .invalidInput)) ∧
      (3 ≤ r.toNat → r.toNat ≤ 6 → v = 0 ∨ 2 ^ 23 ≤ v.toNat →
        exec (.csrWr r v) s = .next (s.enterError .invalidSeed)) ∧
      (v.toNat < 8 →
        exec (.csrWr 0 v) s = .next { s with cfg := v.setWidth 3, resp := some (.ok false []) }) ∧
      (v.toNat < 65536 →
        exec (.csrWr 1 v) s = .next { s with spc := v.setWidth 16, taps := [], resp := some (.ok false []) }) ∧
      (v.toNat < 65536 →
        exec (.csrWr 2 v) s = .next { s with span := v.setWidth 16, taps := [], resp := some (.ok false []) }) ∧
      (0 < v.toNat → v.toNat < 2 ^ 23 →
        exec (.csrWr 3 v) s = .next { s with seedIN := v.setWidth 23, resp := some (.ok false []) } ∧
        exec (.csrWr 4 v) s = .next { s with seedQN := v.setWidth 23, resp := some (.ok false []) } ∧
        exec (.csrWr 5 v) s = .next { s with seedIT := v.setWidth 23, resp := some (.ok false []) } ∧
        exec (.csrWr 6 v) s = .next { s with seedQT := v.setWidth 23, resp := some (.ok false []) }))

/-- `CSR.RD` of a register just written returns the value written, for every register and every value that is accepted. -/
def Obligations.CsrReadReturnsTheValueWritten : Prop :=
  ∀ (s t : State) (r : Operand) (v : Word), s.err = none → exec (.csrWr r v) s = .next t → t.err = none →
    ∃ u, exec (.csrRd r) t = .next u ∧ u.res = v ∧ u.resp = some (.ok false [v])

/-- `CSR.RD r` (46_system.md R253) returns the value of the register's table row (10_state.md R27 to R34) in `RES`; a
number above 16 is an error, and while faulted `ERR` keeps its value. -/
def Obligations.CsrReadReturnsTheRegister : Prop :=
  (∀ r : Operand, encode (.csrRd r) = [(0x03#8 ++ r : BitVec 32)]) ∧
  ∀ (s : State) (r : Operand),
    (∀ v : Word,
      [s.cfg.setWidth 32, s.spc.setWidth 32, s.span.setWidth 32, s.seedIN.setWidth 32, s.seedQN.setWidth 32,
       s.seedIT.setWidth 32, s.seedQT.setWidth 32, s.statusWord, s.rdidx, BitVec.ofNat 32 s.obuf.length,
       s.lfsrI.setWidth 32, s.lfsrQ.setWidth 32, BitVec.ofNat 32 s.mbits.length, BitVec.ofNat 32 s.fbits.length,
       BitVec.ofNat 32 s.ichip.length, BitVec.ofNat 32 s.qchip.length, BitVec.ofNat 32 s.taps.length][r.toNat]? = some v →
      exec (.csrRd r) s = .next { s with res := v, resp := some (.ok false [v]) }) ∧
    (17 ≤ r.toNat → s.err = none → exec (.csrRd r) s = .next (s.enterError .invalidInput)) ∧
    (17 ≤ r.toNat → s.err ≠ none → exec (.csrRd r) s = .next { s with resp := some (.error .invalidInput) })

/-- `STATUS` (10_state.md R35): bit 0 `READY`, bit 1 `EOS`, bits 6:4 the error code, all other bits 0; CSR 7, read-only,
0 after reset. -/
def Obligations.StatusWordHoldsTheFlags : Prop :=
  (∀ s : State, exec (.csrRd 7) s = .next { s with res := s.statusWord, resp := some (.ok false [s.statusWord]) }) ∧
  (∀ (s : State) (v : Word), s.err = none → exec (.csrWr 7 v) s = .next (s.enterError .invalidInput)) ∧
  State.reset.statusWord = 0 ∧
  ∀ s : State, s.statusWord.toNat =
    (if s.ready then 1 else 0) + 2 * (if s.eos then 1 else 0) +
      16 * (match s.err with
        | none => 0
        | some .invalidInput => 1
        | some .invalidSeed => 2
        | some .configurationMismatch => 3
        | some .verificationFailure => 4)

/-- `BUF.RD sel` (46_system.md R254) returns the element count and the elements and changes nothing else; a selector
above 7 is an error. That it leaves `RES` as it is is the model's reading (log entry 13). -/
def Obligations.BufferReadReturnsCountAndElements : Prop :=
  (∀ sel : Operand, encode (.bufRd sel) = [(0x04#8 ++ sel : BitVec 32)]) ∧
  ∀ (s : State) (sel : Operand),
    (∀ ws : List Word,
      [BitVec.ofNat 32 s.mbits.length :: s.mbits.map (fun b => if b then 1 else 0),
       BitVec.ofNat 32 s.fbits.length :: s.fbits.map (fun b => if b then 1 else 0),
       BitVec.ofNat 32 s.ichip.length :: s.ichip.map (fun c => if c = .minus then 1 else 0),
       BitVec.ofNat 32 s.qchip.length :: s.qchip.map (fun c => if c = .minus then 1 else 0),
       BitVec.ofNat 32 s.taps.length :: s.taps.flatMap (fun x : F64 => [(x >>> 32).setWidth 32, x.setWidth 32]),
       BitVec.ofNat 32 s.ishp.length :: s.ishp,
       BitVec.ofNat 32 s.qshp.length :: s.qshp,
       BitVec.ofNat 32 s.obuf.length :: s.obuf.flatMap (fun z => [z.re, z.im])][sel.toNat]? = some ws →
      exec (.bufRd sel) s = .next { s with resp := some (.ok false ws) }) ∧
    (8 ≤ sel.toNat → s.err = none → exec (.bufRd sel) s = .next (s.enterError .invalidInput)) ∧
    (8 ≤ sel.toNat → s.err ≠ none → exec (.bufRd sel) s = .next { s with resp := some (.error .invalidInput) })

/-- `SELFCHK` (46_system.md R255): the 64 output bits from seed 1 are the reference vector, so the check passes in every
CORE that is not faulted, and writes nothing but `RES`. -/
def Obligations.SelfCheckAlwaysPasses : Prop :=
  encode .selfchk = [0x7E000000] ∧
  (∀ k, k < 64 → (0x80000108421284A1 : BitVec 64).getLsbD (63 - k) = outputBit 0x000001 k) ∧
  ∀ s : State, s.err = none → exec .selfchk s = .next { s with res := 1, resp := some (.ok false [1]) }

/-- `VERIFY seed {hi, lo}` (46_system.md R256): it passes exactly when bit `63 - k` of the reference is output bit `k` of
the seed for all 64 bits, and that is so for at most one seed per reference. -/
def Obligations.VerifyComparesTheFirst64Bits : Prop :=
  (∀ (a : Operand) (hi lo : Word), encode (.verify a hi lo) = [(0x7F#8 ++ a : BitVec 32), hi, lo]) ∧
  ∀ (s : State) (a : Operand) (hi lo : Word), s.err = none →
    (a = 0 ∨ 2 ^ 23 ≤ a.toNat → exec (.verify a hi lo) s = .next (s.enterError .invalidSeed)) ∧
    (0 < a.toNat → a.toNat < 2 ^ 23 →
      ((∀ k, k < 64 → (hi ++ lo).getLsbD (63 - k) = outputBit (a.setWidth 23) k) →
        exec (.verify a hi lo) s = .next { s with res := 1, resp := some (.ok false [1]) }) ∧
      ((∃ k, k < 64 ∧ (hi ++ lo).getLsbD (63 - k) ≠ outputBit (a.setWidth 23) k) →
        exec (.verify a hi lo) s = .next (s.enterError .verificationFailure))) ∧
    (∀ (b : Operand) (t u : State), exec (.verify a hi lo) s = .next t → t.err = none →
      exec (.verify b hi lo) s = .next u → u.err = none → a = b)

/-! ### The LFSR -/

/-- `LFSR.LDI` and `LFSR.LDQ` (40_lfsr.md R138, R139): a seed from 1 to `0x7FFFFF` is loaded; 0 and anything with bit 23
set raise `InvalidSeed`. -/
def Obligations.LoadAcceptsExactlyTheValidSeeds : Prop :=
  (∀ a : Operand, encode (.lfsrLdi a) = [(0x10#8 ++ a : BitVec 32)] ∧ encode (.lfsrLdq a) = [(0x11#8 ++ a : BitVec 32)]) ∧
  ∀ (s : State) (a : Operand), s.err = none →
    (0 < a.toNat → a.toNat < 2 ^ 23 →
      exec (.lfsrLdi a) s = .next { s with lfsrI := a.setWidth 23, resp := some (.ok false []) } ∧
      exec (.lfsrLdq a) s = .next { s with lfsrQ := a.setWidth 23, resp := some (.ok false []) }) ∧
    (a = 0 ∨ a.getLsbD 23 = true →
      exec (.lfsrLdi a) s = .next (s.enterError .invalidSeed) ∧
      exec (.lfsrLdq a) s = .next (s.enterError .invalidSeed))

/-- `LFSR.STEPI` and `LFSR.STEPQ` (40_lfsr.md R140, R141), bit by bit: the register shifts right, bit 22 receives bit 0
xor bit 18, and the old bit 0 is the result; a register holding 0 raises `InvalidSeed`. -/
def Obligations.StepShiftsInTheFeedbackBit : Prop :=
  encode .lfsrStepi = [0x12000000] ∧ encode .lfsrStepq = [0x13000000] ∧
  ∀ s : State, s.err = none →
    (s.lfsrI ≠ 0 → ∃ (x : LfsrState) (v : Word),
      (∀ j, j < 22 → x.getLsbD j = s.lfsrI.getLsbD (j + 1)) ∧
      x.getLsbD 22 = (s.lfsrI.getLsbD 0 ^^ s.lfsrI.getLsbD 18) ∧
      v = (if s.lfsrI.getLsbD 0 then 1 else 0) ∧
      exec .lfsrStepi s = .next { s with lfsrI := x, res := v, resp := some (.ok false [v]) }) ∧
    (s.lfsrQ ≠ 0 → ∃ (x : LfsrState) (v : Word),
      (∀ j, j < 22 → x.getLsbD j = s.lfsrQ.getLsbD (j + 1)) ∧
      x.getLsbD 22 = (s.lfsrQ.getLsbD 0 ^^ s.lfsrQ.getLsbD 18) ∧
      v = (if s.lfsrQ.getLsbD 0 then 1 else 0) ∧
      exec .lfsrStepq s = .next { s with lfsrQ := x, res := v, resp := some (.ok false [v]) }) ∧
    (s.lfsrI = 0 → exec .lfsrStepi s = .next (s.enterError .invalidSeed)) ∧
    (s.lfsrQ = 0 → exec .lfsrStepq s = .next (s.enterError .invalidSeed))

/-- `LFSR.GENI n` and `LFSR.GENQ n` (40_lfsr.md R142, R143): the chip buffer of the channel is replaced by the next `n`
output bits as chips, and the register advances by `n` steps; the zero state is refused even for `n = 0`. -/
def Obligations.GenerateReplacesTheChipBuffer : Prop :=
  (∀ n : Operand, encode (.lfsrGeni n) = [(0x14#8 ++ n : BitVec 32)] ∧
    encode (.lfsrGenq n) = [(0x15#8 ++ n : BitVec 32)]) ∧
  ∀ (s : State) (n : Operand), s.err = none →
    (s.lfsrI ≠ 0 → exec (.lfsrGeni n) s = .next
      { s with ichip := (List.range n.toNat).map (fun k => if outputBit s.lfsrI k then .minus else .plus),
               lfsrI := stateAfter s.lfsrI n.toNat, resp := some (.ok false []) }) ∧
    (s.lfsrQ ≠ 0 → exec (.lfsrGenq n) s = .next
      { s with qchip := (List.range n.toNat).map (fun k => if outputBit s.lfsrQ k then .minus else .plus),
               lfsrQ := stateAfter s.lfsrQ n.toNat, resp := some (.ok false []) }) ∧
    (s.lfsrI = 0 → exec (.lfsrGeni n) s = .next (s.enterError .invalidSeed)) ∧
    (s.lfsrQ = 0 → exec (.lfsrGenq n) s = .next (s.enterError .invalidSeed))

/-- The output bits satisfy `a[k+23] = a[k] xor a[k+18]`, and the first 23 are the seed's bits 0 to 22 (the spec's own
inference: 40_lfsr.md R133, marked as derived from R131). -/
def Obligations.OutputBitsSatisfyTheRecurrence : Prop :=
  ∀ (seed : LfsrState) (k : Nat),
    outputBit seed (k + 23) = (outputBit seed k ^^ outputBit seed (k + 18)) ∧
    (k < 23 → outputBit seed k = seed.getLsbD k)

/-- `generate_sequence` (40_lfsr.md R132): the first `n` output bits as chips, in order, and the state after `n` steps;
drawing `n + m` chips is drawing `n` and then `m` from the state the first draw left. -/
def Obligations.SequenceCanBeDrawnInPieces : Prop :=
  ∀ (s : LfsrState) (n m : Nat),
    generateSequence s n =
      ((List.range n).map (fun k => if outputBit s k then .minus else .plus), stateAfter s n) ∧
    generateSequence s (n + m) =
      ((generateSequence s n).1 ++ (generateSequence (generateSequence s n).2 m).1,
       (generateSequence (generateSequence s n).2 m).2) ∧
    (generateSequence s n).1.length = n ∧ generateSequence s 0 = ([], s)

/-- The step is a bijection with the stated predecessor, and 0 is a fixed point and its own only predecessor (the spec's
own inference: 40_lfsr.md R134, marked as derived from R131). -/
def Obligations.LfsrStepIsABijectionFixingOnlyZeroToZero : Prop :=
  Function.Bijective advance ∧
  (∀ s t : LfsrState, advance s = t →
    (∀ j, 1 ≤ j → j ≤ 22 → s.getLsbD j = t.getLsbD (j - 1)) ∧ s.getLsbD 0 = (t.getLsbD 22 ^^ t.getLsbD 17)) ∧
  (∀ s : LfsrState, advance s = 0 ↔ s = 0) ∧
  (∀ (s : LfsrState) (n : Nat), s ≠ 0 → stateAfter s n ≠ 0)

/-- From state 1 the generator first returns to 1 after exactly `2^23 - 1` steps, and every non-zero state lies on that one
cycle (the spec's own inference: 40_lfsr.md R135, marked as computed, not stated in the source). -/
def Obligations.NonZeroStatesLieOnOneCycle : Prop :=
  stateAfter 1 (2 ^ 23 - 1) = 1 ∧
  (∀ n, 0 < n → n < 2 ^ 23 - 1 → stateAfter 1 n ≠ 1) ∧
  (∀ s : LfsrState, s ≠ 0 → ∃ k, k < 2 ^ 23 - 1 ∧ stateAfter 1 k = s)

/-- A loaded LFSR register never holds 0 afterwards: only `RESET` can bring a non-zero register to 0. -/
def Obligations.LoadedLfsrNeverBecomesZero : Prop :=
  ∀ (i : Instr) (s t : State), exec i s = .next t → i ≠ .reset →
    (s.lfsrI ≠ 0 → t.lfsrI ≠ 0) ∧ (s.lfsrQ ≠ 0 → t.lfsrQ ≠ 0)

/-! ### The spreader -/

/-- `FB.LD` and `MSG.LDBITS` (41_dsss.md R155, 45_frame.md R212): a payload of words 0 and 1 replaces the buffer, element
`k` from word `k`; any other word raises `InvalidInput`. -/
def Obligations.BitLoadsReplaceTheirBuffer : Prop :=
  ∀ (s : State) (payload : List Word), s.err = none → payload.length < 2 ^ 24 →
    encode (.fbLd payload) = (0x20#8 ++ BitVec.ofNat 24 payload.length : BitVec 32) :: payload ∧
    encode (.msgLdbits payload) = (0x61#8 ++ BitVec.ofNat 24 payload.length : BitVec 32) :: payload ∧
    ((∀ w ∈ payload, w = 0 ∨ w = 1) →
      exec (.fbLd payload) s = .next { s with fbits := payload.map (fun w => w == 1), resp := some (.ok false []) } ∧
      exec (.msgLdbits payload) s =
        .next { s with mbits := payload.map (fun w => w == 1), resp := some (.ok false []) }) ∧
    ((∃ w ∈ payload, 1 < w.toNat) →
      exec (.fbLd payload) s = .next (s.enterError .invalidInput) ∧
      exec (.msgLdbits payload) s = .next (s.enterError .invalidInput))

/-- `DSSS.SPREAD` (41_dsss.md R156): both registers are tested, then the capacity; the chips of `spread` and the advanced
states are written, and `FBITS` is unchanged. -/
def Obligations.SpreadWritesBothChannels : Prop :=
  encode .dsssSpread = [0x21000000] ∧
  ∀ s : State, s.err = none →
    (s.lfsrI = 0 ∨ s.lfsrQ = 0 → exec .dsssSpread s = .next (s.enterError .invalidSeed)) ∧
    (s.lfsrI ≠ 0 → s.lfsrQ ≠ 0 →
      (2 ^ 25 - 1 ≤ s.fbits.length → exec .dsssSpread s = .next (s.enterError .invalidInput)) ∧
      (s.fbits.length < 2 ^ 25 - 1 →
        exec .dsssSpread s = .next
          { s with ichip := (spread s.fbits 256 s.lfsrI s.lfsrQ).iChips, qchip := (spread s.fbits 256 s.lfsrI s.lfsrQ).qChips,
                   lfsrI := (spread s.fbits 256 s.lfsrI s.lfsrQ).stateI, lfsrQ := (spread s.fbits 256 s.lfsrI s.lfsrQ).stateQ,
                   resp := some (.ok false []) }))

/-- The lengths of the two channels and their final states (41_dsss.md R152): even positions go to I, odd to Q, and each
channel's generator advances by 256 steps for each of its bits (the spec's own inference, marked as derived from R151). -/
def Obligations.SpreadLengthsAndFinalStates : Prop :=
  ∀ (fb : List Bool) (si sq : LfsrState),
    (spread fb 256 si sq).iChips.length = 256 * ((fb.length + 1) / 2) ∧
    (spread fb 256 si sq).qChips.length = 256 * (fb.length / 2) ∧
    (spread fb 256 si sq).stateI = stateAfter si (256 * ((fb.length + 1) / 2)) ∧
    (spread fb 256 si sq).stateQ = stateAfter sq (256 * (fb.length / 2))

/-- Chip `k` of a channel's bit `m` is output bit `256m + k` of that channel's generator, xor the data bit: even positions
on I, odd positions on Q, no generator reset between bits, and no cross-talk between channels (the closed form of
41_dsss.md R151, which the spec marks as its own inference). -/
def Obligations.SpreadChipIsOutputBitXorDataBit : Prop :=
  ∀ (fb : List Bool) (si sq : LfsrState) (m k : Nat) (d : Bool), k < 256 →
    (fb[2 * m]? = some d →
      (spread fb 256 si sq).iChips[256 * m + k]? = some (if outputBit si (256 * m + k) ^^ d then .minus else .plus)) ∧
    (fb[2 * m + 1]? = some d →
      (spread fb 256 si sq).qChips[256 * m + k]? = some (if outputBit sq (256 * m + k) ^^ d then .minus else .plus))

/-- The negation law (41_dsss.md R153): changing the bit at one position negates exactly the 256 chips of its group, and
changes neither any other chip nor a final state (the spec's own inference, marked as derived from R151). -/
def Obligations.ChangingABitNegatesItsChipGroup : Prop :=
  ∀ (fb : List Bool) (si sq : LfsrState) (p : Nat) (d : Bool), fb[p]? = some d →
    (spread (fb.set p (!d)) 256 si sq).iChips =
      (spread fb 256 si sq).iChips.mapIdx (fun j c => if p % 2 = 0 ∧ j / 256 = p / 2 then negChip c else c) ∧
    (spread (fb.set p (!d)) 256 si sq).qChips =
      (spread fb 256 si sq).qChips.mapIdx (fun j c => if p % 2 = 1 ∧ j / 256 = p / 2 then negChip c else c) ∧
    (spread (fb.set p (!d)) 256 si sq).stateI = (spread fb 256 si sq).stateI ∧
    (spread (fb.set p (!d)) 256 si sq).stateQ = (spread fb 256 si sq).stateQ

/-! ### The pulse shaper -/

/-- The pulse expression of every tap position stands for the closed-form RRC pulse at `t = k / SPC`, the special values
being chosen exactly at `t = 0` and `16 |k| = 5 SPC`, and the pulse is even (42_rrc.md R167, R168; the spec marks the
formula as general knowledge, log entry 11). -/
def Obligations.PulseIsTheClosedFormRrcPulse : Prop :=
  (∀ (k : Int) (spc : Nat), 0 < spc → (pulse 4 5 k spc).value = rrcPulse ((k : ℝ) / (spc : ℝ))) ∧
  (∀ t : ℝ, rrcPulse (-t) = rrcPulse t) ∧
  (∀ (k : Int) (spc : Nat), 0 < spc → (|(k : ℝ) / (spc : ℝ)| = 1 / (4 * (4 / 5)) ↔ 16 * k.natAbs = 5 * spc))

/-- The two special expressions are the limits of the general one at its removable singularities (42_rrc.md R167, marked
there as general knowledge; log entry 11): along tap positions `k / SPC` that tend to 0, none of them 0, the value of the
general expression tends to that of the centre expression, and along positions whose distance from the centre tends to
5/16, none of them at it, to that of the special expression. -/
def Obligations.SpecialPulseValuesAreTheLimits : Prop :=
  ∀ (k : Nat → Int) (spc : Nat → Nat), (∀ j, 0 < spc j) →
    ((∀ j, k j ≠ 0) →
      Filter.Tendsto (fun j => (k j : ℝ) / (spc j : ℝ)) Filter.atTop (nhds 0) →
      Filter.Tendsto (fun j => (pulseGeneral 4 5 (k j) (spc j)).value) Filter.atTop (nhds (pulseCentre 4 5).value)) ∧
    ((∀ j, 16 * (k j).natAbs ≠ 5 * spc j) →
      Filter.Tendsto (fun j => |(k j : ℝ) / (spc j : ℝ)|) Filter.atTop (nhds (5 / 16)) →
      Filter.Tendsto (fun j => (pulseGeneral 4 5 (k j) (spc j)).value) Filter.atTop (nhds (pulseSpecial 4 5).value))

/-- Over the reals the taps are the pulse divided by its norm: their squares sum to 1, their number is odd, they are
symmetric about the centre tap, and `H = 0` gives the single tap 1 (42_rrc.md R169; the pulse by log entry 11). -/
def Obligations.ExactTapsHaveUnitEnergy : Prop :=
  ∀ H spc : Nat, 0 < spc →
    (exactTaps 4 5 H spc).length = 2 * H + 1 ∧
    ((exactTaps 4 5 H spc).map fun e => e.value ^ 2).sum = 1 ∧
    (∃ E : ℝ, 0 < E ∧ ∀ i, i ≤ 2 * H →
      ((exactTaps 4 5 H spc)[i]?.map RealExpr.value) = some (rrcPulse (((i : ℝ) - (H : ℝ)) / (spc : ℝ)) / E)) ∧
    (∀ k, k ≤ H → (exactTaps 4 5 H spc)[H + k]?.map RealExpr.value = (exactTaps 4 5 H spc)[H - k]?.map RealExpr.value) ∧
    (H = 0 → (exactTaps 4 5 H spc).map RealExpr.value = [1])

/-- `RRC.TAPS` (42_rrc.md R174): the tests in order; the taps written are `2H + 1` in number, of unit energy within 1e-6,
the single tap 1.0 for `H = 0`, and otherwise what the numerics record stores for the exact taps wherever that is of unit
energy within the tolerance. What is stored is the model's reading of `NUM` (log entries 6, 7, 10 and 11). -/
def Obligations.TapsOperationWritesUnitEnergyTaps : Prop :=
  encode .rrcTaps = [0x30000000] ∧
  ∀ (s : State) (H : Nat), s.err = none →
    H = (match Config.spanUnit with
      | .chips => s.span.toNat * s.spc.toNat
      | .samples => s.span.toNat) →
    (s.spc = 0 → exec .rrcTaps s = .next (s.enterError .configurationMismatch)) ∧
    (s.spc ≠ 0 → 2 ^ 32 ≤ 2 * H + 1 → exec .rrcTaps s = .next (s.enterError .invalidInput)) ∧
    (s.spc ≠ 0 → 2 * H + 1 < 2 ^ 32 →
      ∃ t : List F64, t.length = 2 * H + 1 ∧ unitEnergy t = true ∧ (H = 0 → t = [0x3FF0000000000000]) ∧
        (H = 0 ∨ t = (exactTaps 4 5 H s.spc.toNat).map Config.num64 ∨
          unitEnergy ((exactTaps 4 5 H s.spc.toNat).map Config.num64) = false) ∧
        exec .rrcTaps s = .next { s with taps := t, resp := some (.ok false []) })

/-- `RRC.SHAPEI` and `RRC.SHAPEQ` (42_rrc.md R175, R176): `SPC = 0` first, then no taps, then the capacity; the shaped
stream is what the numerics record stores for the exact convolution of the up-sampled chips with the stored taps (log
entries 6 and 9). -/
def Obligations.ShapeOperationsFilterTheirChannel : Prop :=
  encode .rrcShapei = [0x31000000] ∧ encode .rrcShapeq = [0x32000000] ∧
  ∀ s : State, s.err = none →
    (s.spc = 0 →
      exec .rrcShapei s = .next (s.enterError .configurationMismatch) ∧
      exec .rrcShapeq s = .next (s.enterError .configurationMismatch)) ∧
    (s.spc ≠ 0 → s.taps = [] →
      exec .rrcShapei s = .next (s.enterError .invalidInput) ∧
      exec .rrcShapeq s = .next (s.enterError .invalidInput)) ∧
    (s.spc ≠ 0 → s.taps ≠ [] →
      (2 ^ 32 ≤ s.ichip.length * s.spc.toNat → exec .rrcShapei s = .next (s.enterError .invalidInput)) ∧
      (2 ^ 32 ≤ s.qchip.length * s.spc.toNat → exec .rrcShapeq s = .next (s.enterError .invalidInput)) ∧
      (s.ichip.length * s.spc.toNat < 2 ^ 32 → ∃ y : List F32, y.length = s.ichip.length * s.spc.toNat ∧
        y = (exactShape s.ichip (s.taps.map RealExpr.stored64) s.spc.toNat).map Config.num32 ∧
        exec .rrcShapei s = .next { s with ishp := y, resp := some (.ok false []) }) ∧
      (s.qchip.length * s.spc.toNat < 2 ^ 32 → ∃ y : List F32, y.length = s.qchip.length * s.spc.toNat ∧
        y = (exactShape s.qchip (s.taps.map RealExpr.stored64) s.spc.toNat).map Config.num32 ∧
        exec .rrcShapeq s = .next { s with qshp := y, resp := some (.ok false []) }))

/-- Shaping over the reals (42_rrc.md R170 to R172): output `n` is the sum over the chips `c` with `|n - c·SPC| ≤ H` of
`taps[H + n - c·SPC]` times the chip (the spec's own inference, marked as derived from R170 and R171). -/
def Obligations.ShapeIsTheSumOverNearbyChips : Prop :=
  ∀ (chips : List Chip) (taps : List RealExpr) (H spc n : Nat), 0 < spc → taps.length = 2 * H + 1 →
    n < chips.length * spc →
    (exactShape chips taps spc)[n]?.map RealExpr.value =
      some (((List.range chips.length).map fun c =>
        if c * spc ≤ n + H ∧ n ≤ c * spc + H then
          ((taps[H + n - c * spc]?.map RealExpr.value).getD 0) *
            (match chips[c]? with
              | some .plus => 1
              | some .minus => -1
              | none => 0)
        else 0).sum)

/-! ### The OQPSK modulator -/

/-- Offset, truncation and combining (43_oqpsk.md R187 to R189): sample `n` pairs `i_sig[n]` with `q_sig[n - D]`, or with
0.0 for `n < D`, `D = SPC div 2`, up to the common length. -/
def Obligations.CombiningDelaysQByHalfAChip : Prop :=
  ∀ (iSig qSig : List F32) (spc n : Nat) (z : Sample),
    (combine iSig (delayQ spc qSig)).length = min iSig.length (qSig.length + spc / 2) ∧
    ((combine iSig (delayQ spc qSig))[n]? = some z ↔
      iSig[n]? = some z.re ∧
        ((n < spc / 2 ∧ z.im = 0x00000000) ∨ (spc / 2 ≤ n ∧ qSig[n - spc / 2]? = some z.im)))

/-- `OQPSK.MOD` (43_oqpsk.md R192): the tests in order; with at least one sample kept it completes, recomputing the taps
and both shaped streams. The taps are those of `RRC.TAPS`; the output is the combined stream divided by its greatest
magnitude `M`, each part as the numerics record stores it, wherever that has peak magnitude 1 within 1e-5, and its peak
magnitude is 1 within 1e-5 in any case; its length is the common length, and its imaginary part exactly 0.0 in the first
`SPC div 2` samples. That `M = 0` is tested as `L = 0` is the model's reading (log entry 8), and so is what is stored (log
entries 6, 7, 9, 10 and 11). -/
def Obligations.ModulatorWritesAUnitPeakOutput : Prop :=
  encode .oqpskMod = [0x40000000] ∧
  (∀ (spc : Nat) (z : List Sample), ∃ M : RealExpr,
    (∀ v ∈ z, Real.sqrt ((RealExpr.stored32 v.re).value ^ 2 + (RealExpr.stored32 v.im).value ^ 2) ≤ M.value) ∧
    (z = [] ∨ ∃ v ∈ z,
      M.value = Real.sqrt ((RealExpr.stored32 v.re).value ^ 2 + (RealExpr.stored32 v.im).value ^ 2)) ∧
    (normalised spc z).length = z.length ∧
    (∀ (n : Nat) (v : Sample), z[n]? = some v → (normalised spc z)[n]? =
      some { re := Config.num32 (.div (.stored32 v.re) M),
             im := if n < spc / 2 then 0x00000000 else Config.num32 (.div (.stored32 v.im) M) })) ∧
  ∀ (s : State) (H L : Nat), s.err = none →
    H = (match Config.spanUnit with
      | .chips => s.span.toNat * s.spc.toNat
      | .samples => s.span.toNat) →
    L = min (s.ichip.length * s.spc.toNat) (s.qchip.length * s.spc.toNat + s.spc.toNat / 2) →
    (s.spc = 0 → exec .oqpskMod s = .next (s.enterError .configurationMismatch)) ∧
    (s.spc ≠ 0 →
      2 ^ 32 ≤ 2 * H + 1 ∨ 2 ^ 32 ≤ s.ichip.length * s.spc.toNat ∨
        2 ^ 32 ≤ s.qchip.length * s.spc.toNat + s.spc.toNat / 2 →
      exec .oqpskMod s = .next (s.enterError .invalidInput)) ∧
    (s.spc ≠ 0 → 2 * H + 1 < 2 ^ 32 → s.ichip.length * s.spc.toNat < 2 ^ 32 →
      s.qchip.length * s.spc.toNat + s.spc.toNat / 2 < 2 ^ 32 →
      (L = 0 → exec .oqpskMod s = .next (s.enterError .invalidInput)) ∧
      (0 < L → ∃ (t : List F64) (yi yq : List F32) (out : List Sample),
        t.length = 2 * H + 1 ∧ unitEnergy t = true ∧ (H = 0 → t = [0x3FF0000000000000]) ∧
        (H = 0 ∨ t = (exactTaps 4 5 H s.spc.toNat).map Config.num64 ∨
          unitEnergy ((exactTaps 4 5 H s.spc.toNat).map Config.num64) = false) ∧
        yi = (exactShape s.ichip (t.map RealExpr.stored64) s.spc.toNat).map Config.num32 ∧
        yq = (exactShape s.qchip (t.map RealExpr.stored64) s.spc.toNat).map Config.num32 ∧
        (out = normalised s.spc.toNat (combine yi (delayQ s.spc.toNat yq)) ∨
          unitPeak (normalised s.spc.toNat (combine yi (delayQ s.spc.toNat yq))) = false) ∧
        out.length = L ∧ unitPeak out = true ∧
        (∀ n z, out[n]? = some z → n < s.spc.toNat / 2 → z.im = 0x00000000) ∧
        exec .oqpskMod s = .next
          { s with taps := t, ishp := yi, qshp := yq, obuf := out, rdidx := 0, eos := false, ready := true,
                   resp := some (.ok false []) }))

/-- The step-by-step chain agrees with the modulator: after `RRC.TAPS`, `RRC.SHAPEI`, `RRC.SHAPEQ`, the modulator leaves
`TAPS`, `ISHP` and `QSHP` as the chain left them, and the same output as without the chain (43_oqpsk.md R192, as the model
reads it: log entry 9). -/
def Obligations.ModulatorEqualsTheStepByStepChain : Prop :=
  ∀ s a b c u : State, s.err = none →
    exec .rrcTaps s = .next a → exec .rrcShapei a = .next b → exec .rrcShapeq b = .next c → c.err = none →
    exec .oqpskMod s = .next u → u.err = none →
    u.taps = c.taps ∧ u.ishp = c.ishp ∧ u.qshp = c.qshp ∧ exec .oqpskMod c = .next u

/-- Over the reals, the peak of a modulated stream is 0 exactly when no sample is kept (43_oqpsk.md R190): the first sample
of a shaped stream is never 0, the centre tap being larger than all taps one or more chips away together. This is what
the model's test of `M = 0` rests on (log entry 8); the pulse is that of log entry 11. -/
def Obligations.ExactPeakIsZeroExactlyWhenNothingIsKept : Prop :=
  ∀ (ic qc : List Chip) (H spc : Nat), 0 < spc →
    ((exactPeak (exactStream ic qc H spc)).value = 0 ↔ peakIsZero ic qc spc = true)

/-! ### Biphase-L -/

/-- `BPL.BIT b` (44_biphase.md R205): the sixteen samples of the bit, eight at each phase, bit for bit; an operand above
1 raises `InvalidInput`. -/
def Obligations.BiphaseBitWritesSixteenSamples : Prop :=
  (∀ b : Operand, encode (.bplBit b) = [(0x50#8 ++ b : BitVec 32)]) ∧
  ∀ s : State, s.err = none →
    exec (.bplBit 1) s = .next
      { s with obuf := List.replicate 8 ⟨0x3EE83DC0, 0x3F64262A⟩ ++ List.replicate 8 ⟨0x3EE83DC0, 0xBF64262A⟩,
               rdidx := 0, eos := false, ready := true, resp := some (.ok false []) } ∧
    exec (.bplBit 0) s = .next
      { s with obuf := List.replicate 8 ⟨0x3EE83DC0, 0xBF64262A⟩ ++ List.replicate 8 ⟨0x3EE83DC0, 0x3F64262A⟩,
               rdidx := 0, eos := false, ready := true, resp := some (.ok false []) } ∧
    (∀ b : Operand, 1 < b.toNat → exec (.bplBit b) s = .next (s.enterError .invalidInput))

/-! ### The frame assembler -/

/-- `MSG.LDB n {bytes}` (45_frame.md R211): bit `8k + i` of the message is bit `7 - i` of byte `k`; a word above `0xFF`
raises `InvalidInput`. -/
def Obligations.ByteLoadIsMostSignificantBitFirst : Prop :=
  ∀ (s : State) (payload : List Word), s.err = none → payload.length < 2 ^ 24 →
    encode (.msgLdb payload) = (0x60#8 ++ BitVec.ofNat 24 payload.length : BitVec 32) :: payload ∧
    ((∀ w ∈ payload, w.toNat ≤ 0xFF) → ∃ m : List Bool, m.length = 8 * payload.length ∧
      (∀ k i w, payload[k]? = some w → i < 8 → m[8 * k + i]? = some (w.getLsbD (7 - i))) ∧
      exec (.msgLdb payload) s = .next { s with mbits := m, resp := some (.ok false []) }) ∧
    ((∃ w ∈ payload, 0xFF < w.toNat) → exec (.msgLdb payload) s = .next (s.enterError .invalidInput))

/-- `FRM.BUILD` (45_frame.md R217): preamble, sync pattern and message in 1G, preamble and message in 2G; a message of the
wrong length raises `InvalidInput`. `CFG` bit 0 is `GEN`, bit 1 `TEST`. The capacity premise is that of 10_state.md R39
(log entry 12). -/
def Obligations.FrameBitsArePreambleSyncMessage : Prop :=
  encode .frmBuild = [0x62000000] ∧
  ∀ s : State, s.err = none →
    (s.cfg.getLsbD 0 = false → s.mbits.length % 8 ≠ 0 → exec .frmBuild s = .next (s.enterError .invalidInput)) ∧
    (s.cfg.getLsbD 0 = true → s.mbits.length ≠ 250 → exec .frmBuild s = .next (s.enterError .invalidInput)) ∧
    (s.cfg.getLsbD 0 = false → s.mbits.length % 8 = 0 → 24 + s.mbits.length < 2 ^ 32 →
      exec .frmBuild s = .next
        { s with fbits := List.replicate 15 true ++
                   (if s.cfg.getLsbD 1 then [false, true, true, false, true, false, false, false, false]
                    else [false, false, false, true, false, true, true, true, true]) ++ s.mbits,
                 resp := some (.ok false []) }) ∧
    (s.cfg.getLsbD 0 = true → s.mbits.length = 250 →
      exec .frmBuild s = .next { s with fbits := List.replicate 50 false ++ s.mbits, resp := some (.ok false []) })

/-- `ASM` in 1G (45_frame.md R218, R220): 1024 carrier samples, then sixteen samples for each frame bit; it writes `FBITS`
and the output only. Sample `1024 + 16p + r` belongs to frame bit `p`, first half for `r < 8`. The capacity premise is
that of 10_state.md R39 (log entry 12). -/
def Obligations.AssembleFirstGenerationFrame : Prop :=
  encode .asm = [0x63000000] ∧
  ∀ s : State, s.err = none → s.cfg.getLsbD 0 = false →
    (s.mbits.length % 8 ≠ 0 → exec .asm s = .next (s.enterError .invalidInput)) ∧
    (s.mbits.length % 8 = 0 → 1024 + 16 * (24 + s.mbits.length) < 2 ^ 32 →
      ∃ (fb : List Bool) (out : List Sample),
        fb = List.replicate 15 true ++
               (if s.cfg.getLsbD 1 then [false, true, true, false, true, false, false, false, false]
                else [false, false, false, true, false, true, true, true, true]) ++ s.mbits ∧
        out.length = 1024 + 16 * (24 + s.mbits.length) ∧
        (∀ n, n < 1024 → out[n]? = some ⟨0x3F800000, 0x00000000⟩) ∧
        (∀ p r d, fb[p]? = some d → r < 16 →
          out[1024 + 16 * p + r]? =
            some (if d = decide (r < 8) then ⟨0x3EE83DC0, 0x3F64262A⟩ else ⟨0x3EE83DC0, 0xBF64262A⟩)) ∧
        exec .asm s = .next
          { s with fbits := fb, obuf := out, rdidx := 0, eos := false, ready := true, resp := some (.ok false []) })

/-- `ASM` in 2G (45_frame.md R219, R220, R222): the tests in order; the frame bits are spread from the seeds the mode
selects, the registers end advanced by 38400 steps, and the output has `38400 · SPC` samples of peak magnitude 1. The taps
and the output are what the numerics record stores, as in `Obligations.ModulatorWritesAUnitPeakOutput`, which says what
`normalised` is. What is stored is the model's reading of `NUM` (log entries 6, 7, 9, 10 and 11). -/
def Obligations.AssembleSecondGenerationFrame : Prop :=
  ∀ (s : State) (H : Nat) (seedI seedQ : LfsrState), s.err = none → s.cfg.getLsbD 0 = true →
    H = (match Config.spanUnit with
      | .chips => s.span.toNat * s.spc.toNat
      | .samples => s.span.toNat) →
    seedI = (if s.cfg.getLsbD 1 then s.seedIT else s.seedIN) →
    seedQ = (if s.cfg.getLsbD 1 then s.seedQT else s.seedQN) →
    (s.mbits.length ≠ 250 ∨ 2 ^ 32 ≤ 2 * H + 1 → exec .asm s = .next (s.enterError .invalidInput)) ∧
    (s.mbits.length = 250 → 2 * H + 1 < 2 ^ 32 →
      (s.spc = 0 → exec .asm s = .next (s.enterError .configurationMismatch)) ∧
      (s.spc ≠ 0 → seedI = 0 ∨ seedQ = 0 → exec .asm s = .next (s.enterError .invalidSeed)) ∧
      (s.spc ≠ 0 → seedI ≠ 0 → seedQ ≠ 0 →
        ∃ (fb : List Bool) (t : List F64) (yi yq : List F32) (out : List Sample),
          fb = List.replicate 50 false ++ s.mbits ∧
          t.length = 2 * H + 1 ∧ unitEnergy t = true ∧ (H = 0 → t = [0x3FF0000000000000]) ∧
          (H = 0 ∨ t = (exactTaps 4 5 H s.spc.toNat).map Config.num64 ∨
            unitEnergy ((exactTaps 4 5 H s.spc.toNat).map Config.num64) = false) ∧
          yi = (exactShape (spread fb 256 seedI seedQ).iChips (t.map RealExpr.stored64) s.spc.toNat).map Config.num32 ∧
          yq = (exactShape (spread fb 256 seedI seedQ).qChips (t.map RealExpr.stored64) s.spc.toNat).map Config.num32 ∧
          (out = normalised s.spc.toNat (combine yi (delayQ s.spc.toNat yq)) ∨
            unitPeak (normalised s.spc.toNat (combine yi (delayQ s.spc.toNat yq))) = false) ∧
          out.length = 38400 * s.spc.toNat ∧ unitPeak out = true ∧
          (∀ n z, out[n]? = some z → n < s.spc.toNat / 2 → z.im = 0x00000000) ∧
          (spread fb 256 seedI seedQ).iChips.length = 38400 ∧ (spread fb 256 seedI seedQ).qChips.length = 38400 ∧
          exec .asm s = .next
            { s with fbits := fb, ichip := (spread fb 256 seedI seedQ).iChips, qchip := (spread fb 256 seedI seedQ).qChips,
                     lfsrI := stateAfter seedI 38400, lfsrQ := stateAfter seedQ 38400,
                     taps := t, ishp := yi, qshp := yq, obuf := out, rdidx := 0, eos := false, ready := true,
                     resp := some (.ok false []) }))

/-- A 2G frame assembled by `ASM` is the one the step-by-step chain gives when the same seeds are in the registers:
`FRM.BUILD`, `DSSS.SPREAD`, `OQPSK.MOD` end in the same state (45_frame.md R217). That the stored values agree bit for bit
is the model's reading (log entries 6 and 9). -/
def Obligations.AssembleEqualsTheStepByStepChain : Prop :=
  ∀ s a b c u : State, s.err = none → s.cfg.getLsbD 0 = true →
    s.lfsrI = (if s.cfg.getLsbD 1 then s.seedIT else s.seedIN) →
    s.lfsrQ = (if s.cfg.getLsbD 1 then s.seedQT else s.seedQN) →
    exec .frmBuild s = .next a → exec .dsssSpread a = .next b → exec .oqpskMod b = .next c → c.err = none →
    exec .asm s = .next u → c = u

/-! ### Playback -/

/-- `PULL n` with nothing assembled, and `REWIND` likewise, raise `InvalidInput`; `REWIND` restarts playback (45_frame.md
R225, R229). -/
def Obligations.RewindRestartsPlayback : Prop :=
  encode .rewind = [0x71000000] ∧
  ∀ s : State, s.err = none →
    (s.ready = true → exec .rewind s = .next { s with rdidx := 0, eos := false, resp := some (.ok false []) }) ∧
    (s.ready = false → exec .rewind s = .next (s.enterError .invalidInput)) ∧
    (s.ready = false → ∀ n, exec (.pull n) s = .next (s.enterError .invalidInput))

/-- `PULL n` in cyclic playback (45_frame.md R226): sample `j` is `OBUF[(RDIDX + j) mod OLEN]`, the index advances modulo
`OLEN`, and neither `EOS` nor `S` is ever set. -/
def Obligations.CyclicPullWrapsAround : Prop :=
  (∀ n : Operand, encode (.pull n) = [(0x70#8 ++ n : BitVec 32)]) ∧
  ∀ (s : State) (n : Operand), s.err = none → s.ready = true → s.cfg.getLsbD 2 = true → s.obuf ≠ [] →
    s.obuf.length < 2 ^ 32 →
    ∃ chunk : List Sample, chunk.length = n.toNat ∧
      (∀ j, j < n.toNat → chunk[j]? = s.obuf[(s.rdidx.toNat + j) % s.obuf.length]?) ∧
      exec (.pull n) s = .next
        { s with rdidx := BitVec.ofNat 32 ((s.rdidx.toNat + n.toNat) % s.obuf.length),
                 resp := some (.ok false (chunk.flatMap fun z => [z.re, z.im])) }

/-- `PULL n` in finite playback (45_frame.md R227, R228): the samples left, padded with zeros to `n`; the end-of-stream
signal is raised, and `EOS` set, by the chunk that delivers the last sample, once. The third clause, after the end and for
an empty chunk, is the spec's own inference (R228, marked as derived from R226 and R227). -/
def Obligations.FinitePullPadsAndSignalsOnce : Prop :=
  ∀ (s : State) (n : Operand) (k : Nat), s.err = none → s.ready = true → s.cfg.getLsbD 2 = false →
    s.rdidx.toNat ≤ s.obuf.length → s.obuf.length < 2 ^ 32 →
    k = min n.toNat (s.obuf.length - s.rdidx.toNat) →
    (¬(s.rdidx.toNat + k = s.obuf.length ∧ s.eos = false) →
      exec (.pull n) s = .next
        { s with rdidx := BitVec.ofNat 32 (s.rdidx.toNat + k),
                 resp := some (.ok false ((((s.obuf.drop s.rdidx.toNat).take k) ++
                   List.replicate (n.toNat - k) (⟨0x00000000, 0x00000000⟩ : Sample)).flatMap fun z => [z.re, z.im])) }) ∧
    (s.rdidx.toNat + k = s.obuf.length → s.eos = false →
      exec (.pull n) s = .next
        { s with rdidx := BitVec.ofNat 32 s.obuf.length, eos := true,
                 resp := some (.ok true ((((s.obuf.drop s.rdidx.toNat).take k) ++
                   List.replicate (n.toNat - k) (⟨0x00000000, 0x00000000⟩ : Sample)).flatMap fun z => [z.re, z.im])) }) ∧
    (s.Inv → s.eos = true ∨ n = 0 → ∃ data, exec (.pull n) s = .next { s with resp := some (.ok false data) } ∧
      data = List.replicate (2 * n.toNat) 0)

/-- Pulling `n` and then `m` samples delivers the samples of pulling `n + m`, and leaves the same state but for the
response: a chunk boundary may fall anywhere (20_memory.md R69; 45_frame.md R226, R227). -/
def Obligations.PullsInPiecesDeliverTheSameStream : Prop :=
  ∀ (s a b c : State) (n m l : Operand) (x y z : List Word) (e f g : Bool), s.Inv → s.err = none → s.ready = true →
    l.toNat = n.toNat + m.toNat →
    exec (.pull n) s = .next a → exec (.pull m) a = .next b → exec (.pull l) s = .next c →
    a.resp = some (.ok e x) → b.resp = some (.ok f y) → c.resp = some (.ok g z) →
    z = x ++ y ∧ g = (e || f) ∧ b = { c with resp := b.resp }
end

