-- ==== Sys2Proof/Laws/Decode.lean ====
section
/-! SUPPORT. The fields of a command word, and what decoding answers for each shape of command. -/

namespace Sys2Proof

@[simp] theorem opcodeOf_cmdWord (op : BitVec 8) (a : Operand) : opcodeOf (cmdWord op a) = op := by
  unfold opcodeOf cmdWord
  ext i hi
  simp only [BitVec.getElem_extractLsb', BitVec.getLsbD_append]
  rw [if_neg (by omega), Nat.add_sub_cancel_left, BitVec.getLsbD_eq_getElem hi]

@[simp] theorem operandOf_cmdWord (op : BitVec 8) (a : Operand) : operandOf (cmdWord op a) = a := by
  unfold operandOf cmdWord
  ext i hi
  simp only [BitVec.getElem_extractLsb', BitVec.getLsbD_append, Nat.zero_add]
  rw [if_pos hi, BitVec.getLsbD_eq_getElem hi]

/-- A command word is its two fields. -/
theorem cmdWord_fields (w : Word) : cmdWord (opcodeOf w) (operandOf w) = w := by
  unfold cmdWord opcodeOf operandOf
  ext i hi
  simp only [BitVec.getElem_append, BitVec.getElem_extractLsb', Nat.zero_add]
  split
  · rw [BitVec.getLsbD_eq_getElem hi]
  · rw [show 24 + (i - 24) = i by omega, BitVec.getLsbD_eq_getElem hi]

theorem decodeN_zero (op : BitVec 8) (i : Instr) (rest : List Word) :
    decodeN (cmdWord op 0) i rest = .command i rest := by
  simp [decodeN]

theorem decodeN_nonzero (op : BitVec 8) (a : Operand) (h : a ≠ 0) (i : Instr) (rest : List Word) :
    decodeN (cmdWord op a) i rest = .rejected (.reservedOperand op a) rest := by
  unfold decodeN
  rw [operandOf_cmdWord, opcodeOf_cmdWord, if_neg h]

/-- A payload of the counted length is taken whole. -/
theorem decodeList_append (mk : List Word → Instr) (payload rest : List Word) :
    decodeList payload.length mk (payload ++ rest) = .command (mk payload) rest := by
  simp [decodeList]

theorem decodeList_short {n : Nat} {rest : List Word} (h : rest.length < n) (mk : List Word → Instr) :
    decodeList n mk rest = .incomplete := by
  simp [decodeList, h]

/-- A well-formed payload's length is read back from its count operand. -/
theorem payload_length_of_fits {payload : List Word} (h : payloadFits payload = true) :
    (BitVec.ofNat 24 payload.length).toNat = payload.length := by
  simp only [payloadFits, decide_eq_true_eq] at h
  rw [BitVec.toNat_ofNat, Nat.mod_eq_of_lt h]

end Sys2Proof
end

