-- ==== Sys2Proof/Laws/State.lean ====
section
/-! SUPPORT. One lemma for each field of each update of the state, each true by unfolding, so that no proof unfolds a
record update. -/

namespace Sys2Proof.Machine

/-! ### Responding -/

@[simp] theorem State.respond_port (s : State) (r : Response) : (s.respond r).port = s.port := rfl
@[simp] theorem State.respond_resp (s : State) (r : Response) : (s.respond r).resp = some r := rfl
@[simp] theorem State.respond_resetIn (s : State) (r : Response) : (s.respond r).resetIn = s.resetIn := rfl
@[simp] theorem State.respond_lfsrI (s : State) (r : Response) : (s.respond r).lfsrI = s.lfsrI := rfl
@[simp] theorem State.respond_lfsrQ (s : State) (r : Response) : (s.respond r).lfsrQ = s.lfsrQ := rfl
@[simp] theorem State.respond_res (s : State) (r : Response) : (s.respond r).res = s.res := rfl
@[simp] theorem State.respond_rdidx (s : State) (r : Response) : (s.respond r).rdidx = s.rdidx := rfl
@[simp] theorem State.respond_ready (s : State) (r : Response) : (s.respond r).ready = s.ready := rfl
@[simp] theorem State.respond_eos (s : State) (r : Response) : (s.respond r).eos = s.eos := rfl
@[simp] theorem State.respond_err (s : State) (r : Response) : (s.respond r).err = s.err := rfl
@[simp] theorem State.respond_cfg (s : State) (r : Response) : (s.respond r).cfg = s.cfg := rfl
@[simp] theorem State.respond_spc (s : State) (r : Response) : (s.respond r).spc = s.spc := rfl
@[simp] theorem State.respond_span (s : State) (r : Response) : (s.respond r).span = s.span := rfl
@[simp] theorem State.respond_seedIN (s : State) (r : Response) : (s.respond r).seedIN = s.seedIN := rfl
@[simp] theorem State.respond_seedQN (s : State) (r : Response) : (s.respond r).seedQN = s.seedQN := rfl
@[simp] theorem State.respond_seedIT (s : State) (r : Response) : (s.respond r).seedIT = s.seedIT := rfl
@[simp] theorem State.respond_seedQT (s : State) (r : Response) : (s.respond r).seedQT = s.seedQT := rfl
@[simp] theorem State.respond_taps (s : State) (r : Response) : (s.respond r).taps = s.taps := rfl
@[simp] theorem State.respond_mbits (s : State) (r : Response) : (s.respond r).mbits = s.mbits := rfl
@[simp] theorem State.respond_fbits (s : State) (r : Response) : (s.respond r).fbits = s.fbits := rfl
@[simp] theorem State.respond_ichip (s : State) (r : Response) : (s.respond r).ichip = s.ichip := rfl
@[simp] theorem State.respond_qchip (s : State) (r : Response) : (s.respond r).qchip = s.qchip := rfl
@[simp] theorem State.respond_ishp (s : State) (r : Response) : (s.respond r).ishp = s.ishp := rfl
@[simp] theorem State.respond_qshp (s : State) (r : Response) : (s.respond r).qshp = s.qshp := rfl
@[simp] theorem State.respond_obuf (s : State) (r : Response) : (s.respond r).obuf = s.obuf := rfl

/-! ### Error entry -/

@[simp] theorem State.enterError_port (s : State) (k : ErrKind) : (s.enterError k).port = s.port := rfl
@[simp] theorem State.enterError_resp (s : State) (k : ErrKind) : (s.enterError k).resp = some (.error k) := rfl
@[simp] theorem State.enterError_resetIn (s : State) (k : ErrKind) : (s.enterError k).resetIn = s.resetIn := rfl
@[simp] theorem State.enterError_lfsrI (s : State) (k : ErrKind) : (s.enterError k).lfsrI = s.lfsrI := rfl
@[simp] theorem State.enterError_lfsrQ (s : State) (k : ErrKind) : (s.enterError k).lfsrQ = s.lfsrQ := rfl
@[simp] theorem State.enterError_res (s : State) (k : ErrKind) : (s.enterError k).res = s.res := rfl
@[simp] theorem State.enterError_rdidx (s : State) (k : ErrKind) : (s.enterError k).rdidx = 0 := rfl
@[simp] theorem State.enterError_ready (s : State) (k : ErrKind) : (s.enterError k).ready = false := rfl
@[simp] theorem State.enterError_eos (s : State) (k : ErrKind) : (s.enterError k).eos = false := rfl
@[simp] theorem State.enterError_err (s : State) (k : ErrKind) : (s.enterError k).err = some k := rfl
@[simp] theorem State.enterError_cfg (s : State) (k : ErrKind) : (s.enterError k).cfg = s.cfg := rfl
@[simp] theorem State.enterError_spc (s : State) (k : ErrKind) : (s.enterError k).spc = s.spc := rfl
@[simp] theorem State.enterError_span (s : State) (k : ErrKind) : (s.enterError k).span = s.span := rfl
@[simp] theorem State.enterError_seedIN (s : State) (k : ErrKind) : (s.enterError k).seedIN = s.seedIN := rfl
@[simp] theorem State.enterError_seedQN (s : State) (k : ErrKind) : (s.enterError k).seedQN = s.seedQN := rfl
@[simp] theorem State.enterError_seedIT (s : State) (k : ErrKind) : (s.enterError k).seedIT = s.seedIT := rfl
@[simp] theorem State.enterError_seedQT (s : State) (k : ErrKind) : (s.enterError k).seedQT = s.seedQT := rfl
@[simp] theorem State.enterError_taps (s : State) (k : ErrKind) : (s.enterError k).taps = s.taps := rfl
@[simp] theorem State.enterError_mbits (s : State) (k : ErrKind) : (s.enterError k).mbits = s.mbits := rfl
@[simp] theorem State.enterError_fbits (s : State) (k : ErrKind) : (s.enterError k).fbits = s.fbits := rfl
@[simp] theorem State.enterError_ichip (s : State) (k : ErrKind) : (s.enterError k).ichip = s.ichip := rfl
@[simp] theorem State.enterError_qchip (s : State) (k : ErrKind) : (s.enterError k).qchip = s.qchip := rfl
@[simp] theorem State.enterError_ishp (s : State) (k : ErrKind) : (s.enterError k).ishp = s.ishp := rfl
@[simp] theorem State.enterError_qshp (s : State) (k : ErrKind) : (s.enterError k).qshp = s.qshp := rfl
@[simp] theorem State.enterError_obuf (s : State) (k : ErrKind) : (s.enterError k).obuf = [] := rfl

/-! ### Writing an output -/

@[simp] theorem State.setOutput_port (s : State) (out : List Sample) : (s.setOutput out).port = s.port := rfl
@[simp] theorem State.setOutput_resp (s : State) (out : List Sample) : (s.setOutput out).resp = s.resp := rfl
@[simp] theorem State.setOutput_resetIn (s : State) (out : List Sample) : (s.setOutput out).resetIn = s.resetIn := rfl
@[simp] theorem State.setOutput_lfsrI (s : State) (out : List Sample) : (s.setOutput out).lfsrI = s.lfsrI := rfl
@[simp] theorem State.setOutput_lfsrQ (s : State) (out : List Sample) : (s.setOutput out).lfsrQ = s.lfsrQ := rfl
@[simp] theorem State.setOutput_res (s : State) (out : List Sample) : (s.setOutput out).res = s.res := rfl
@[simp] theorem State.setOutput_rdidx (s : State) (out : List Sample) : (s.setOutput out).rdidx = 0 := rfl
@[simp] theorem State.setOutput_ready (s : State) (out : List Sample) : (s.setOutput out).ready = true := rfl
@[simp] theorem State.setOutput_eos (s : State) (out : List Sample) : (s.setOutput out).eos = false := rfl
@[simp] theorem State.setOutput_err (s : State) (out : List Sample) : (s.setOutput out).err = s.err := rfl
@[simp] theorem State.setOutput_cfg (s : State) (out : List Sample) : (s.setOutput out).cfg = s.cfg := rfl
@[simp] theorem State.setOutput_spc (s : State) (out : List Sample) : (s.setOutput out).spc = s.spc := rfl
@[simp] theorem State.setOutput_span (s : State) (out : List Sample) : (s.setOutput out).span = s.span := rfl
@[simp] theorem State.setOutput_seedIN (s : State) (out : List Sample) : (s.setOutput out).seedIN = s.seedIN := rfl
@[simp] theorem State.setOutput_seedQN (s : State) (out : List Sample) : (s.setOutput out).seedQN = s.seedQN := rfl
@[simp] theorem State.setOutput_seedIT (s : State) (out : List Sample) : (s.setOutput out).seedIT = s.seedIT := rfl
@[simp] theorem State.setOutput_seedQT (s : State) (out : List Sample) : (s.setOutput out).seedQT = s.seedQT := rfl
@[simp] theorem State.setOutput_taps (s : State) (out : List Sample) : (s.setOutput out).taps = s.taps := rfl
@[simp] theorem State.setOutput_mbits (s : State) (out : List Sample) : (s.setOutput out).mbits = s.mbits := rfl
@[simp] theorem State.setOutput_fbits (s : State) (out : List Sample) : (s.setOutput out).fbits = s.fbits := rfl
@[simp] theorem State.setOutput_ichip (s : State) (out : List Sample) : (s.setOutput out).ichip = s.ichip := rfl
@[simp] theorem State.setOutput_qchip (s : State) (out : List Sample) : (s.setOutput out).qchip = s.qchip := rfl
@[simp] theorem State.setOutput_ishp (s : State) (out : List Sample) : (s.setOutput out).ishp = s.ishp := rfl
@[simp] theorem State.setOutput_qshp (s : State) (out : List Sample) : (s.setOutput out).qshp = s.qshp := rfl
@[simp] theorem State.setOutput_obuf (s : State) (out : List Sample) : (s.setOutput out).obuf = out := rfl

/-! ### Restarting -/

@[simp] theorem State.restart_port (s : State) : (s.restart).port = s.port := rfl
@[simp] theorem State.restart_resp (s : State) : (s.restart).resp = none := rfl
@[simp] theorem State.restart_resetIn (s : State) : (s.restart).resetIn = s.resetIn := rfl
@[simp] theorem State.restart_lfsrI (s : State) : (s.restart).lfsrI = 0 := rfl
@[simp] theorem State.restart_lfsrQ (s : State) : (s.restart).lfsrQ = 0 := rfl
@[simp] theorem State.restart_res (s : State) : (s.restart).res = 0 := rfl
@[simp] theorem State.restart_rdidx (s : State) : (s.restart).rdidx = 0 := rfl
@[simp] theorem State.restart_ready (s : State) : (s.restart).ready = false := rfl
@[simp] theorem State.restart_eos (s : State) : (s.restart).eos = false := rfl
@[simp] theorem State.restart_err (s : State) : (s.restart).err = none := rfl
@[simp] theorem State.restart_cfg (s : State) : (s.restart).cfg = 0 := rfl
@[simp] theorem State.restart_spc (s : State) : (s.restart).spc = 0 := rfl
@[simp] theorem State.restart_span (s : State) : (s.restart).span = Config.spanDefault := rfl
@[simp] theorem State.restart_seedIN (s : State) : (s.restart).seedIN = Config.seedINormal := rfl
@[simp] theorem State.restart_seedQN (s : State) : (s.restart).seedQN = Config.seedQN := rfl
@[simp] theorem State.restart_seedIT (s : State) : (s.restart).seedIT = Config.seedIT := rfl
@[simp] theorem State.restart_seedQT (s : State) : (s.restart).seedQT = Config.seedQT := rfl
@[simp] theorem State.restart_taps (s : State) : (s.restart).taps = [] := rfl
@[simp] theorem State.restart_mbits (s : State) : (s.restart).mbits = [] := rfl
@[simp] theorem State.restart_fbits (s : State) : (s.restart).fbits = [] := rfl
@[simp] theorem State.restart_ichip (s : State) : (s.restart).ichip = [] := rfl
@[simp] theorem State.restart_qchip (s : State) : (s.restart).qchip = [] := rfl
@[simp] theorem State.restart_ishp (s : State) : (s.restart).ishp = [] := rfl
@[simp] theorem State.restart_qshp (s : State) : (s.restart).qshp = [] := rfl
@[simp] theorem State.restart_obuf (s : State) : (s.restart).obuf = [] := rfl

/-! ### Reset by the reset input -/

@[simp] theorem State.resetByInput_port (s : State) : (s.resetByInput).port = s.port := rfl
@[simp] theorem State.resetByInput_resp (s : State) : (s.resetByInput).resp = none := rfl
@[simp] theorem State.resetByInput_resetIn (s : State) : (s.resetByInput).resetIn = false := rfl
@[simp] theorem State.resetByInput_lfsrI (s : State) : (s.resetByInput).lfsrI = 0 := rfl
@[simp] theorem State.resetByInput_lfsrQ (s : State) : (s.resetByInput).lfsrQ = 0 := rfl
@[simp] theorem State.resetByInput_res (s : State) : (s.resetByInput).res = 0 := rfl
@[simp] theorem State.resetByInput_rdidx (s : State) : (s.resetByInput).rdidx = 0 := rfl
@[simp] theorem State.resetByInput_ready (s : State) : (s.resetByInput).ready = false := rfl
@[simp] theorem State.resetByInput_eos (s : State) : (s.resetByInput).eos = false := rfl
@[simp] theorem State.resetByInput_err (s : State) : (s.resetByInput).err = none := rfl
@[simp] theorem State.resetByInput_cfg (s : State) : (s.resetByInput).cfg = 0 := rfl
@[simp] theorem State.resetByInput_spc (s : State) : (s.resetByInput).spc = 0 := rfl
@[simp] theorem State.resetByInput_span (s : State) : (s.resetByInput).span = Config.spanDefault := rfl
@[simp] theorem State.resetByInput_seedIN (s : State) : (s.resetByInput).seedIN = Config.seedINormal := rfl
@[simp] theorem State.resetByInput_seedQN (s : State) : (s.resetByInput).seedQN = Config.seedQN := rfl
@[simp] theorem State.resetByInput_seedIT (s : State) : (s.resetByInput).seedIT = Config.seedIT := rfl
@[simp] theorem State.resetByInput_seedQT (s : State) : (s.resetByInput).seedQT = Config.seedQT := rfl
@[simp] theorem State.resetByInput_taps (s : State) : (s.resetByInput).taps = [] := rfl
@[simp] theorem State.resetByInput_mbits (s : State) : (s.resetByInput).mbits = [] := rfl
@[simp] theorem State.resetByInput_fbits (s : State) : (s.resetByInput).fbits = [] := rfl
@[simp] theorem State.resetByInput_ichip (s : State) : (s.resetByInput).ichip = [] := rfl
@[simp] theorem State.resetByInput_qchip (s : State) : (s.resetByInput).qchip = [] := rfl
@[simp] theorem State.resetByInput_ishp (s : State) : (s.resetByInput).ishp = [] := rfl
@[simp] theorem State.resetByInput_qshp (s : State) : (s.resetByInput).qshp = [] := rfl
@[simp] theorem State.resetByInput_obuf (s : State) : (s.resetByInput).obuf = [] := rfl

end Sys2Proof.Machine
end

