-- ==== Sys2Proof/Laws/Ops.lean ====
section
/-! SUPPORT. What each shared operation can do, said once: running an operation, rejecting a command word, and a
bounded free list. -/

namespace Sys2Proof.Machine

/-! ### Running an operation -/

/-- A faulted CORE refuses the operation (60_exceptions.md R277). -/
theorem State.perform_of_err {s : State} {k : ErrKind} (h : s.err = some k) (e : Effect) :
    s.perform e = .next (s.respond (.error k)) := by
  simp [State.perform, h]

theorem State.perform_raise {s : State} (h : s.err = none) (k : ErrKind) :
    s.perform (.raise k) = .next (s.enterError k) := by
  simp [State.perform, h]

theorem State.perform_finish {s : State} (h : s.err = none) (t : State) (r : Response) :
    s.perform (.finish t r) = .next (t.respond r) := by
  simp [State.perform, h]

/-- Running an operation always answers a next state. -/
theorem State.perform_next (s : State) (e : Effect) : ∃ t, s.perform e = .next t := by
  unfold State.perform
  cases s.err with
  | some k => exact ⟨_, rfl⟩
  | none => cases e <;> exact ⟨_, rfl⟩

/-- Everything running an operation can do: refuse it, enter the error it raises, or end as it ends. -/
theorem State.perform_cases {s t : State} {e : Effect} (h : s.perform e = .next t) :
    (∃ k, s.err = some k ∧ t = s.respond (.error k)) ∨
      (s.err = none ∧ ∃ k, e = .raise k ∧ t = s.enterError k) ∨
      (s.err = none ∧ ∃ u r, e = .finish u r ∧ t = u.respond r) := by
  unfold State.perform at h
  cases he : s.err with
  | some k =>
    simp only [he, Host.Outcome.next.injEq] at h
    exact .inl ⟨k, rfl, h.symm⟩
  | none =>
    cases e with
    | raise k =>
      simp only [he, Host.Outcome.next.injEq] at h
      exact .inr (.inl ⟨rfl, k, rfl, h.symm⟩)
    | finish u r =>
      simp only [he, Host.Outcome.next.injEq] at h
      exact .inr (.inr ⟨rfl, u, r, rfl, h.symm⟩)

theorem State.performAlways_finish (s t : State) (r : Response) :
    s.performAlways (.finish t r) = .next (t.respond r) := rfl

/-- An error raised while faulted is answered, and `ERR` keeps its value (60_exceptions.md R277). -/
theorem State.performAlways_raise_of_err {s : State} {j : ErrKind} (h : s.err = some j) (k : ErrKind) :
    s.performAlways (.raise k) = .next (s.respond (.error k)) := by
  simp [State.performAlways, h]

theorem State.performAlways_raise {s : State} (h : s.err = none) (k : ErrKind) :
    s.performAlways (.raise k) = .next (s.enterError k) := by
  simp [State.performAlways, h]

theorem State.performAlways_next (s : State) (e : Effect) : ∃ t, s.performAlways e = .next t := by
  cases e with
  | finish t r => exact ⟨_, rfl⟩
  | raise k =>
    unfold State.performAlways
    cases s.err <;> exact ⟨_, rfl⟩

/-- Everything running an operation that is accepted while faulted can do. -/
theorem State.performAlways_cases {s t : State} {e : Effect} (h : s.performAlways e = .next t) :
    (∃ j k, s.err = some j ∧ e = .raise k ∧ t = s.respond (.error k)) ∨
      (s.err = none ∧ ∃ k, e = .raise k ∧ t = s.enterError k) ∨
      (∃ u r, e = .finish u r ∧ t = u.respond r) := by
  cases e with
  | finish u r =>
    simp only [State.performAlways, Host.Outcome.next.injEq] at h
    exact .inr (.inr ⟨u, r, rfl, h.symm⟩)
  | raise k =>
    cases he : s.err with
    | some j =>
      rw [State.performAlways_raise_of_err he, Host.Outcome.next.injEq] at h
      exact .inl ⟨j, k, rfl, rfl, h.symm⟩
    | none =>
      rw [State.performAlways_raise he, Host.Outcome.next.injEq] at h
      exact .inr (.inl ⟨rfl, k, rfl, h.symm⟩)

/-! ### The capacity -/

theorem overCapacity_eq_true {n : Nat} : overCapacity n = true ↔ 2 ^ 32 ≤ n := decide_eq_true_iff

theorem overCapacity_eq_false {n : Nat} : overCapacity n = false ↔ n < 2 ^ 32 :=
  decide_eq_false_iff_not.trans Nat.not_le

/-! ### A bounded free list -/

/-- A bounded list meets its bound, given that its witness does. -/
theorem bounded_ok {α : Type} {ok : List α → Bool} {answer witness : List α} (h : ok witness = true) :
    ok (bounded ok answer witness) = true := by
  unfold bounded
  split
  · assumption
  · exact h

/-- A bounded list is the free answer wherever that meets the bound. -/
theorem bounded_of_ok {α : Type} {ok : List α → Bool} {answer witness : List α} (h : ok answer = true) :
    bounded ok answer witness = answer := by
  simp [bounded, h]

/-- A bounded list is the free answer unless that misses the bound. -/
theorem bounded_eq_or {α : Type} (ok : List α → Bool) (answer witness : List α) :
    bounded ok answer witness = answer ∨ ok answer = false := by
  cases h : ok answer
  · exact .inr rfl
  · exact .inl (bounded_of_ok h)

theorem bounded_length {α : Type} {ok : List α → Bool} {answer witness : List α} {n : Nat}
    (ha : answer.length = n) (hw : witness.length = n) : (bounded ok answer witness).length = n := by
  unfold bounded
  split <;> assumption

end Sys2Proof.Machine
end

