-- ==== Sys2Proof/Laws/Exec.lean ====
section
/-! SUPPORT. Every operation answers a next state: an error is a next state too (60_exceptions.md R275, R277). -/

namespace Sys2Proof.Machine

theorem exec_answers_next (i : Instr) (s : State) : ∃ t, exec i s = .next t := by
  cases i <;> simp only [exec]
  case reset => unfold execReset; exact State.performAlways_next _ _
  case csrWr => unfold execCsrWr; exact State.perform_next _ _
  case csrRd => unfold execCsrRd; exact State.performAlways_next _ _
  case bufRd => unfold execBufRd; exact State.performAlways_next _ _
  case lfsrLdi => unfold execLfsrLdi; exact State.perform_next _ _
  case lfsrLdq => unfold execLfsrLdq; exact State.perform_next _ _
  case lfsrStepi => unfold execLfsrStepi; exact State.perform_next _ _
  case lfsrStepq => unfold execLfsrStepq; exact State.perform_next _ _
  case lfsrGeni => unfold execLfsrGeni; exact State.perform_next _ _
  case lfsrGenq => unfold execLfsrGenq; exact State.perform_next _ _
  case fbLd => unfold execFbLd; exact State.perform_next _ _
  case dsssSpread => unfold execDsssSpread; exact State.perform_next _ _
  case rrcTaps => unfold execRrcTaps; exact State.perform_next _ _
  case rrcShapei => unfold execRrcShapei; exact State.perform_next _ _
  case rrcShapeq => unfold execRrcShapeq; exact State.perform_next _ _
  case oqpskMod => unfold execOqpskMod; exact State.perform_next _ _
  case bplBit => unfold execBplBit; exact State.perform_next _ _
  case msgLdb => unfold execMsgLdb; exact State.perform_next _ _
  case msgLdbits => unfold execMsgLdbits; exact State.perform_next _ _
  case frmBuild => unfold execFrmBuild; exact State.perform_next _ _
  case asm => unfold execAsm; exact State.perform_next _ _
  case pull => unfold execPull; exact State.perform_next _ _
  case rewind => unfold execRewind; exact State.perform_next _ _
  case selfchk => unfold execSelfchk; exact State.perform_next _ _
  case verify => unfold execVerify; exact State.perform_next _ _

theorem rejectCommand_answers_next (s : State) : ∃ t, rejectCommand s = .next t := State.perform_next _ _

theorem step_answers_next (s : State) : ∃ t, step s = .next t := by
  unfold step
  split
  · exact ⟨_, rfl⟩
  · split
    · exact exec_answers_next _ _
    · exact rejectCommand_answers_next _
    · exact ⟨_, rfl⟩

end Sys2Proof.Machine
end

