-- ==== Sys2Proof/Laws/Lfsr.lean ====
section
/-! SUPPORT. The generator and the spreader: lengths, and drawing in pieces. -/

namespace Sys2Proof.Machine

@[simp] theorem generateBits_zero (s : LfsrState) : generateBits s 0 = ([], s) := rfl

theorem generateBits_succ (s : LfsrState) (n : Nat) :
    generateBits s (n + 1) =
      (s.getLsbD 0 :: (generateBits (advance s) n).1, (generateBits (advance s) n).2) := rfl

@[simp] theorem generateBits_length (s : LfsrState) (n : Nat) : (generateBits s n).1.length = n := by
  induction n generalizing s with
  | zero => rfl
  | succ n ih => simp [generateBits_succ, ih]

@[simp] theorem generateSequence_length (s : LfsrState) (n : Nat) : (generateSequence s n).1.length = n := by
  simp [generateSequence]

/-- The final state is the state after as many steps. -/
theorem generateBits_state (s : LfsrState) (n : Nat) : (generateBits s n).2 = advance^[n] s := by
  induction n generalizing s with
  | zero => rfl
  | succ n ih => simp [generateBits_succ, ih, Function.iterate_succ_apply]

@[simp] theorem chipGroup_length (b : Bool) (cpb : Nat) (s : LfsrState) : (chipGroup b cpb s).1.length = cpb := by
  simp [chipGroup]

@[simp] theorem negChip_negChip (c : Chip) : negChip (negChip c) = c := by cases c <;> rfl

@[simp] theorem bitOf_chipOf (b : Bool) : bitOf (chipOf b) = b := by cases b <;> rfl

@[simp] theorem chipOf_bitOf (c : Chip) : chipOf (bitOf c) = c := by cases c <;> rfl

theorem negChip_chipOf (b : Bool) : negChip (chipOf b) = chipOf (!b) := by cases b <;> rfl

end Sys2Proof.Machine
end

