-- ==== Sys2Proof/Laws/PerInstr.lean ====
section
/-! SUPPORT. Statements about every instruction as syntax, one lemma for each constructor. -/

namespace Sys2Proof.Laws

/-- A well-formed instruction's command word announces as many payload words as its encoding has (30_encoding.md R102). -/
def PayloadLength.Statement (i : Instr) : Prop :=
  i.wf = true → i.payload.length = payloadCount (cmdWord i.opcode i.operand)

theorem payloadLength_constant {i : Instr} {n : Nat} (hp : i.payload.length = n)
    (hc : payloadCount (cmdWord i.opcode i.operand) = n) : PayloadLength.Statement i := fun _ => by rw [hp, hc]

/-- The three operations whose operand counts the payload. -/
theorem payloadLength_counted {payload : List Word} {op : BitVec 8} (h : payloadFits payload = true)
    (ho : op = 0x20 ∨ op = 0x60 ∨ op = 0x61) :
    payload.length = payloadCount (cmdWord op (BitVec.ofNat 24 payload.length)) := by
  have hl := payload_length_of_fits h
  rcases ho with rfl | rfl | rfl <;> simp [payloadCount, hl]

theorem PayloadLength.reset : PayloadLength.Statement .reset :=
  payloadLength_constant (n := 0) rfl (by simp [Instr.opcode, payloadCount])

theorem PayloadLength.csrWr (r : Operand) (v : Word) : PayloadLength.Statement (.csrWr r v) :=
  payloadLength_constant (n := 1) rfl (by simp [Instr.opcode, payloadCount])

theorem PayloadLength.csrRd (r : Operand) : PayloadLength.Statement (.csrRd r) :=
  payloadLength_constant (n := 0) rfl (by simp [Instr.opcode, payloadCount])

theorem PayloadLength.bufRd (sel : Operand) : PayloadLength.Statement (.bufRd sel) :=
  payloadLength_constant (n := 0) rfl (by simp [Instr.opcode, payloadCount])

theorem PayloadLength.lfsrLdi (seed : Operand) : PayloadLength.Statement (.lfsrLdi seed) :=
  payloadLength_constant (n := 0) rfl (by simp [Instr.opcode, payloadCount])

theorem PayloadLength.lfsrLdq (seed : Operand) : PayloadLength.Statement (.lfsrLdq seed) :=
  payloadLength_constant (n := 0) rfl (by simp [Instr.opcode, payloadCount])

theorem PayloadLength.lfsrStepi : PayloadLength.Statement .lfsrStepi :=
  payloadLength_constant (n := 0) rfl (by simp [Instr.opcode, payloadCount])

theorem PayloadLength.lfsrStepq : PayloadLength.Statement .lfsrStepq :=
  payloadLength_constant (n := 0) rfl (by simp [Instr.opcode, payloadCount])

theorem PayloadLength.lfsrGeni (n : Operand) : PayloadLength.Statement (.lfsrGeni n) :=
  payloadLength_constant (n := 0) rfl (by simp [Instr.opcode, payloadCount])

theorem PayloadLength.lfsrGenq (n : Operand) : PayloadLength.Statement (.lfsrGenq n) :=
  payloadLength_constant (n := 0) rfl (by simp [Instr.opcode, payloadCount])

theorem PayloadLength.fbLd (payload : List Word) : PayloadLength.Statement (.fbLd payload) :=
  fun h => payloadLength_counted (op := 0x20) h (by simp)

theorem PayloadLength.dsssSpread : PayloadLength.Statement .dsssSpread :=
  payloadLength_constant (n := 0) rfl (by simp [Instr.opcode, payloadCount])

theorem PayloadLength.rrcTaps : PayloadLength.Statement .rrcTaps :=
  payloadLength_constant (n := 0) rfl (by simp [Instr.opcode, payloadCount])

theorem PayloadLength.rrcShapei : PayloadLength.Statement .rrcShapei :=
  payloadLength_constant (n := 0) rfl (by simp [Instr.opcode, payloadCount])

theorem PayloadLength.rrcShapeq : PayloadLength.Statement .rrcShapeq :=
  payloadLength_constant (n := 0) rfl (by simp [Instr.opcode, payloadCount])

theorem PayloadLength.oqpskMod : PayloadLength.Statement .oqpskMod :=
  payloadLength_constant (n := 0) rfl (by simp [Instr.opcode, payloadCount])

theorem PayloadLength.bplBit (b : Operand) : PayloadLength.Statement (.bplBit b) :=
  payloadLength_constant (n := 0) rfl (by simp [Instr.opcode, payloadCount])

theorem PayloadLength.msgLdb (payload : List Word) : PayloadLength.Statement (.msgLdb payload) :=
  fun h => payloadLength_counted (op := 0x60) h (by simp)

theorem PayloadLength.msgLdbits (payload : List Word) : PayloadLength.Statement (.msgLdbits payload) :=
  fun h => payloadLength_counted (op := 0x61) h (by simp)

theorem PayloadLength.frmBuild : PayloadLength.Statement .frmBuild :=
  payloadLength_constant (n := 0) rfl (by simp [Instr.opcode, payloadCount])

theorem PayloadLength.asm : PayloadLength.Statement .asm :=
  payloadLength_constant (n := 0) rfl (by simp [Instr.opcode, payloadCount])

theorem PayloadLength.pull (n : Operand) : PayloadLength.Statement (.pull n) :=
  payloadLength_constant (n := 0) rfl (by simp [Instr.opcode, payloadCount])

theorem PayloadLength.rewind : PayloadLength.Statement .rewind :=
  payloadLength_constant (n := 0) rfl (by simp [Instr.opcode, payloadCount])

theorem PayloadLength.selfchk : PayloadLength.Statement .selfchk :=
  payloadLength_constant (n := 0) rfl (by simp [Instr.opcode, payloadCount])

theorem PayloadLength.verify (seed : Operand) (hi : Word) (lo : Word) : PayloadLength.Statement (.verify seed hi lo) :=
  payloadLength_constant (n := 2) rfl (by simp [Instr.opcode, payloadCount])

end Sys2Proof.Laws
end

