-- ==== Sys2Proof/Laws/Rrc.lean ====
section
/-! SUPPORT. Taps, shaped streams and normalised outputs: lengths, and the stated tolerances. -/

namespace Sys2Proof.Machine

@[simp] theorem rawTaps_length (num den H spc : Nat) : (rawTaps num den H spc).length = 2 * H + 1 := by
  simp [rawTaps]

@[simp] theorem exactTaps_length (num den H spc : Nat) : (exactTaps num den H spc).length = 2 * H + 1 := by
  simp [exactTaps]

@[simp] theorem centreTaps_length (H : Nat) : (centreTaps H).length = 2 * H + 1 := by
  simp [centreTaps]
  omega

theorem storedTaps_zero (spc : Nat) : storedTaps 0 spc = [one64] := by simp [storedTaps]

@[simp] theorem storedTaps_length (H spc : Nat) : (storedTaps H spc).length = 2 * H + 1 := by
  unfold storedTaps
  split
  · next h => simp [h]
  · exact bounded_length (by simp) (by simp)

theorem finite64_zero64 : finite64 zero64 = true := by decide

theorem finite64_one64 : finite64 one64 = true := by decide

theorem scaled64_zero64 : scaled64 zero64 = 0 := by decide

theorem scaled64_one64 : scaled64 one64 = 2 ^ 1074 := by decide +kernel

/-- The bound on taps can be met. -/
theorem unitEnergy_centreTaps (H : Nat) : unitEnergy (centreTaps H) = true := by
  have he : scaledEnergy (centreTaps H) = 2 ^ 2148 := by
    have hp : (2 : Int) ^ 1074 * 2 ^ 1074 = 2 ^ 2148 := (pow_add 2 1074 1074).symm
    simp only [scaledEnergy, centreTaps, List.map_append, List.map_cons, List.map_replicate, scaled64_zero64,
      scaled64_one64, List.sum_append, List.sum_cons, List.sum_replicate, hp]
    simp only [mul_zero, smul_zero, add_zero, zero_add]
  have hf : (centreTaps H).all finite64 = true := by
    simp [centreTaps, finite64_zero64, finite64_one64]
  simp only [unitEnergy, he, hf, sub_self, Int.natAbs_zero, Nat.zero_mul, Nat.zero_le, decide_true, Bool.and_self]

/-- Stored taps have unit energy within the stated tolerance (42_rrc.md R169). -/
theorem unitEnergy_storedTaps (H spc : Nat) : unitEnergy (storedTaps H spc) = true := by
  unfold storedTaps
  split
  · exact unitEnergy_centreTaps 0
  · exact bounded_ok (unitEnergy_centreTaps H)

@[simp] theorem upsample_length (chips : List Chip) (spc : Nat) : (upsample chips spc).length = chips.length * spc := by
  simp [upsample, List.length_flatMap]

@[simp] theorem convSame_length (x taps : List RealExpr) : (convSame x taps).length = x.length := by
  simp [convSame]

@[simp] theorem exactShape_length (chips : List Chip) (taps : List RealExpr) (spc : Nat) :
    (exactShape chips taps spc).length = chips.length * spc := by
  simp [exactShape]

@[simp] theorem storedShape_length (chips : List Chip) (taps : List F64) (spc : Nat) :
    (storedShape chips taps spc).length = chips.length * spc := by
  simp [storedShape]

@[simp] theorem delayQ_length (spc : Nat) (q : List F32) : (delayQ spc q).length = q.length + offsetSamples spc := by
  simp [delayQ, Nat.add_comm]

@[simp] theorem combine_length (i q : List F32) : (combine i q).length = min i.length q.length := by
  simp [combine]

@[simp] theorem normalised_length (spc : Nat) (z : List Sample) : (normalised spc z).length = z.length := by
  simp [normalised]

theorem peakWitness_length {n : Nat} (h : 0 < n) : (peakWitness n).length = n := by
  simp [peakWitness]
  omega

theorem magAtMostOne_carrier : magAtMostOne carrierSample = true := by decide +kernel

theorem magAtLeastOne_carrier : magAtLeastOne carrierSample = true := by decide +kernel

theorem magAtMostOne_zero : magAtMostOne zeroSample = true := by decide +kernel

theorem magAtMostOne_phasePlus : magAtMostOne phasePlus = true := by decide +kernel

theorem magAtMostOne_phaseMinus : magAtMostOne phaseMinus = true := by decide +kernel

theorem magAtLeastOne_phasePlus : magAtLeastOne phasePlus = true := by decide +kernel

/-- The bound on the peak can be met. -/
theorem unitPeak_peakWitness (n : Nat) : unitPeak (peakWitness n) = true := by
  simp [unitPeak, peakWitness, magAtMostOne_carrier, magAtLeastOne_carrier, magAtMostOne_zero]

/-- A stored output has peak magnitude 1 within the stated tolerance (43_oqpsk.md R190). -/
theorem unitPeak_storedOutput (spc : Nat) (z : List Sample) : unitPeak (storedOutput spc z) = true :=
  bounded_ok (unitPeak_peakWitness _)

theorem storedOutput_length {spc : Nat} {z : List Sample} (h : 0 < z.length) :
    (storedOutput spc z).length = z.length :=
  bounded_length (by simp) (peakWitness_length h)

/-- As many samples come out of a modulation as are kept (43_oqpsk.md R188). -/
theorem modulate_out_length {ic qc : List Chip} {H spc : Nat} (h : 0 < keptLength ic.length qc.length spc) :
    (modulate ic qc H spc).out.length = keptLength ic.length qc.length spc := by
  have hl : (combine (storedShape ic (storedTaps H spc) spc)
      (delayQ spc (storedShape qc (storedTaps H spc) spc))).length = keptLength ic.length qc.length spc := by
    simp [keptLength]
  simp only [modulate]
  rw [storedOutput_length (by omega), hl]

end Sys2Proof.Machine
end

