-- ==== Sys2Proof/Tests/Slice0.lean ====
section
/-! SUPPORT. Tests of this model. The words and values expected are those of 95_test_vectors.md, whose vector each section
names, or of a rule's own example. The witnesses at the end show, for each statement of Certificates/Slice0 that has
hypotheses, that they can be met. -/

namespace Sys2Proof.Tests

open Sys2Proof.Machine

/-! ### Well-formedness: one ill-formed term for each check -/

theorem test_wf_refuses_long_fbLd : (Instr.fbLd (List.replicate (2 ^ 24) 0)).wf = false := by
  simp only [Instr.wf, payloadFits, List.length_replicate, decide_eq_false_iff_not, Nat.lt_irrefl, not_false_eq_true]

theorem test_wf_refuses_long_msgLdb : (Instr.msgLdb (List.replicate (2 ^ 24) 0)).wf = false := by
  simp only [Instr.wf, payloadFits, List.length_replicate, decide_eq_false_iff_not, Nat.lt_irrefl, not_false_eq_true]

theorem test_wf_refuses_long_msgLdbits : (Instr.msgLdbits (List.replicate (2 ^ 24) 0)).wf = false := by
  simp only [Instr.wf, payloadFits, List.length_replicate, decide_eq_false_iff_not, Nat.lt_irrefl, not_false_eq_true]

theorem test_wf_accepts_longest : (Instr.fbLd (List.replicate (2 ^ 24 - 1) 0)).wf = true := by
  simp only [Instr.wf, payloadFits, List.length_replicate, decide_eq_true_eq]; omega

/-! ### Decoding: the words of V-E1, one command for each operation -/

theorem test_decode_reset : decode [0x01000000] = .command .reset [] := by decide
theorem test_decode_csrWr : decode [0x02000001, 0x0000000A] = .command (.csrWr 1 10) [] := by decide
theorem test_decode_csrRd : decode [0x03000007] = .command (.csrRd 7) [] := by decide
theorem test_decode_bufRd : decode [0x04000007] = .command (.bufRd 7) [] := by decide
theorem test_decode_lfsrLdi : decode [0x10000001] = .command (.lfsrLdi 1) [] := by decide
theorem test_decode_lfsrLdq : decode [0x111AC3FC] = .command (.lfsrLdq 0x1AC3FC) [] := by decide
theorem test_decode_lfsrStepi : decode [0x12000000] = .command .lfsrStepi [] := by decide
theorem test_decode_lfsrStepq : decode [0x13000000] = .command .lfsrStepq [] := by decide
theorem test_decode_lfsrGeni : decode [0x14000040] = .command (.lfsrGeni 64) [] := by decide
theorem test_decode_lfsrGenq : decode [0x15FFFFFF] = .command (.lfsrGenq 0xFFFFFF) [] := by decide
theorem test_decode_fbLd :
    decode [0x20000004, 1, 0, 0, 1, 0x63000000] = .command (.fbLd [1, 0, 0, 1]) [0x63000000] := by decide
theorem test_decode_dsssSpread : decode [0x21000000] = .command .dsssSpread [] := by decide
theorem test_decode_rrcTaps : decode [0x30000000] = .command .rrcTaps [] := by decide
theorem test_decode_rrcShapei : decode [0x31000000] = .command .rrcShapei [] := by decide
theorem test_decode_rrcShapeq : decode [0x32000000] = .command .rrcShapeq [] := by decide
theorem test_decode_oqpskMod : decode [0x40000000] = .command .oqpskMod [] := by decide
theorem test_decode_bplBit : decode [0x50000001] = .command (.bplBit 1) [] := by decide
theorem test_decode_msgLdb : decode [0x60000001, 0x000000FF] = .command (.msgLdb [0xFF]) [] := by decide
theorem test_decode_msgLdbits : decode [0x61000003, 1, 1, 0] = .command (.msgLdbits [1, 1, 0]) [] := by decide
theorem test_decode_frmBuild : decode [0x62000000] = .command .frmBuild [] := by decide
theorem test_decode_asm : decode [0x63000000] = .command .asm [] := by decide
theorem test_decode_pull : decode [0x70000400] = .command (.pull 1024) [] := by decide
theorem test_decode_rewind : decode [0x71000000] = .command .rewind [] := by decide
theorem test_decode_selfchk : decode [0x7E000000] = .command .selfchk [] := by decide
theorem test_decode_verify :
    decode [0x7F000001, 0x80000108, 0x421284A1] = .command (.verify 1 0x80000108 0x421284A1) [] := by decide

/-- The illegal words of V-E2; a word of no operation takes nothing after it. -/
theorem test_decode_illegal :
    decode [0x00000000, 7] = .rejected (.illegalOpcode 0x00) [7] ∧
    decode [0x05000000] = .rejected (.illegalOpcode 0x05) [] ∧
    decode [0x7D000000] = .rejected (.illegalOpcode 0x7D) [] ∧
    decode [0x80000000] = .rejected (.illegalOpcode 0x80) [] ∧
    decode [0xFFFFFFFF] = .rejected (.illegalOpcode 0xFF) [] ∧
    decode [0x01000001] = .rejected (.reservedOperand 0x01 1) [] ∧
    decode [0x12000001] = .rejected (.reservedOperand 0x12 1) [] := by decide

/-- A command waits for its payload; `MSG.LDB 0` has none. -/
theorem test_decode_payload :
    decode [] = .incomplete ∧ decode [0x02000001] = .incomplete ∧ decode [0x7F000001, 0] = .incomplete ∧
    decode [0x20000002, 1] = .incomplete ∧ decode [0x60000000] = .command (.msgLdb []) [] := by decide

/-- Encoding gives the words of V-E1. -/
theorem test_encode :
    encode (.csrWr 4 0x1AC3FC) = [0x02000004, 0x001AC3FC] ∧ encode (.msgLdbits [1, 1, 0]) = [0x61000003, 1, 1, 0] ∧
    encode (.verify 1 0x80000108 0x421284A1) = [0x7F000001, 0x80000108, 0x421284A1] ∧
    encode .rewind = [0x71000000] := by decide

/-- The table's numbering: the second word of `CSR.WR` is bits 63..32; words the table gives no bits are 0. -/
theorem test_decodeTableWord :
    decodeTableWord 64 0x0000000A02000001 = some (.csrWr 1 10) ∧
    decodeTableWord 32 0x20000003 = some (.fbLd [0, 0, 0]) ∧
    decodeTableWord 32 0x7F000005 = some (.verify 5 0 0) ∧ decodeTableWord 32 0x01000001 = none := by decide

/-! ### Small states -/

/-- A CORE after reset whose three open seeds are given values. -/
def base : State := { State.reset with seedQN := 0x000041, seedIT := 0x1AC3FC, seedQT := 0x7FFFFF }

/-- One field of the state an outcome ends in. -/
def field {α : Type} (f : State → α) : Host.Outcome State Fault Refusal → Option α
  | .next t => some (f t)
  | .fault _ => none
  | .refused _ => none

/-- The logic bits of a chip buffer. -/
def bitsOf (chips : List Chip) : List Bool := chips.map bitOf

/-! ### Single steps -/

/-- V-E3 and R251. -/
theorem test_reset : field (fun t => (t.err, t.lfsrI, t.span, t.obuf)) (exec .reset
    { base with err := some .invalidSeed, lfsrI := 5, span := 3 }) = some (none, 0, 31, []) := by decide

/-- V-E3: `CSR.WR 0 {7}`, `CSR.WR 0 {8}`, `CSR.WR 3 {0x800000}`. -/
theorem test_csrWr : field State.cfg (exec (.csrWr 0 7) base) = some 7 ∧
    field State.err (exec (.csrWr 0 8) base) = some (some .invalidInput) ∧
    field State.err (exec (.csrWr 3 0x800000) base) = some (some .invalidSeed) := by decide

/-- V-R12: a write to `SPAN` empties the taps, the same value included. -/
theorem test_csrWr_span : field State.taps (exec (.csrWr 2 31) { base with taps := [one64] }) = some [] := by decide

/-- V-E3: `CSR.RD 2`, `CSR.RD 3` from reset; P1 step 11: `STATUS` after a verification failure. -/
theorem test_csrRd : field State.resp (exec (.csrRd 2) base) = some (some (.ok false [31])) ∧
    field State.res (exec (.csrRd 3) base) = some 1 ∧
    field State.res (exec (.csrRd 7) { base with err := some .verificationFailure }) = some 0x40 := by decide

/-- V-L5: four chips -1, +1, +1, +1 are the count 4 and the words 1, 0, 0, 0. -/
theorem test_bufRd : field State.resp (exec (.bufRd 2) { base with ichip := [.minus, .plus, .plus, .plus] }) =
    some (some (.ok false [4, 1, 0, 0, 0])) := by decide

/-- The pairs of R110: a tap is two words, high half first; a sample is its real part, then its imaginary part. -/
theorem test_bufRd_pairs :
    field State.resp (exec (.bufRd 4) { base with taps := [0xBFB3D0D1356BEC0D] }) =
      some (some (.ok false [1, 0xBFB3D0D1, 0x356BEC0D])) ∧
    field State.resp (exec (.bufRd 7) { base with obuf := [phaseMinus] }) =
      some (some (.ok false [1, 0x3EE83DC0, 0xBF64262A])) := by decide

/-- V-L5. -/
theorem test_lfsrLdi : field State.lfsrI (exec (.lfsrLdi 0x7FFFFF) base) = some 0x7FFFFF ∧
    field State.err (exec (.lfsrLdi 0x800001) base) = some (some .invalidSeed) := by decide
theorem test_lfsrLdq : field State.lfsrQ (exec (.lfsrLdq 0x000041) base) = some 0x000041 ∧
    field State.err (exec (.lfsrLdq 0) base) = some (some .invalidSeed) := by decide
theorem test_lfsrStepi : field (fun t => (t.lfsrI, t.res, t.resp)) (exec .lfsrStepi { base with lfsrI := 1 }) =
    some (0x400000, 1, some (.ok false [1])) := by decide
theorem test_lfsrStepq : field (fun t => (t.lfsrQ, t.res)) (exec .lfsrStepq { base with lfsrQ := 0x41 }) =
    some (0x400020, 1) := by decide
theorem test_lfsrGeni : field (fun t => (pack64 (bitsOf t.ichip), t.lfsrI))
    (exec (.lfsrGeni 64) { base with lfsrI := 1 }) = some (0x80000108421284A1, 0x485634) := by decide +kernel
theorem test_lfsrGenq : field (fun t => (pack64 (bitsOf t.qchip), t.lfsrQ))
    (exec (.lfsrGenq 64) { base with lfsrQ := 0x41 }) = some (0x8200010C631ACEB3, 0x5DDB15) := by decide +kernel

/-- R155. -/
theorem test_fbLd : field State.fbits (exec (.fbLd [1, 0, 0, 1]) base) = some [true, false, false, true] ∧
    field State.err (exec (.fbLd [0, 2]) base) = some (some .invalidInput) := by decide

/-- V-D3: an odd count of bits, and the states after it. -/
theorem test_dsssSpread :
    field (fun t => (t.ichip.length, t.qchip.length, t.lfsrI, t.lfsrQ, pack64 (bitsOf (t.ichip.take 64)),
        pack64 (bitsOf (t.qchip.take 64))))
      (exec .dsssSpread { base with lfsrI := 1, lfsrQ := 0x41, fbits := [true, true, false] }) =
      some (512, 256, 0x05A21D, 0x4440C1, 0x7FFFFEF7BDED7B5E, 0x7DFFFEF39CE5314C) := by decide +kernel

/-- V-D7. -/
theorem test_dsssSpread_unloaded : field (fun t => (t.err, t.lfsrI)) (exec .dsssSpread { base with lfsrI := 1 }) =
    some (some .invalidSeed, 1) := by decide

/-- V-R12. -/
theorem test_rrcTaps : field State.err (exec .rrcTaps base) = some (some .configurationMismatch) := by decide
theorem test_rrcShapei : field State.err (exec .rrcShapei base) = some (some .configurationMismatch) ∧
    field State.err (exec .rrcShapei { base with spc := 2 }) = some (some .invalidInput) ∧
    field State.ishp (exec .rrcShapei { base with spc := 2, taps := [one64] }) = some [] := by decide
theorem test_rrcShapeq : field State.err (exec .rrcShapeq { base with spc := 2 }) = some (some .invalidInput) ∧
    field State.qshp (exec .rrcShapeq { base with spc := 2, taps := [one64] }) = some [] := by decide

/-- A half-span of 0 chips and one of 0 samples are both a half-length of 0. -/
theorem halfLength_of_span_zero {s : State} (h : s.span = 0) : s.halfLength = 0 := by
  unfold State.halfLength halfLength
  cases Config.spanUnit <;> simp [h]

/-- At one sample per chip both units give the half-length `SPAN`. -/
theorem halfLength_of_spc_one {s : State} (h : s.spc = 1) : s.halfLength = s.span.toNat := by
  unfold State.halfLength halfLength
  cases Config.spanUnit <;> simp [h]

/-- V-R1: `SPAN = 0` gives the single tap 1.0. -/
theorem test_rrcTaps_single : field State.taps (exec .rrcTaps { base with spc := 2, span := 0 }) =
    some [0x3FF0000000000000] := by
  have h : ({ base with spc := 2, span := 0 } : State).halfLength = 0 := halfLength_of_span_zero rfl
  simp only [exec, execRrcTaps, h, storedTaps_zero]
  decide

/-- R192: no configuration. -/
theorem test_oqpskMod_unconfigured : field State.err (exec .oqpskMod base) = some (some .configurationMismatch) := by
  decide

/-- R192: both chip buffers empty. -/
theorem test_oqpskMod_empty : field State.err (exec .oqpskMod { base with spc := 1, span := 0 }) =
    some (some .invalidInput) := by
  have h : ({ base with spc := 1, span := 0 } : State).halfLength = 0 := halfLength_of_span_zero rfl
  simp only [exec, execOqpskMod, h]
  decide

/-- R205. -/
theorem test_bplBit : field State.obuf (exec (.bplBit 1) base) =
    some (List.replicate 8 ⟨0x3EE83DC0, 0x3F64262A⟩ ++ List.replicate 8 ⟨0x3EE83DC0, 0xBF64262A⟩) ∧
    field State.ready (exec (.bplBit 0) base) = some true := by decide

/-- R211. -/
theorem test_msgLdb : field State.mbits (exec (.msgLdb [0xA5, 0x0F]) base) =
    some [true, false, true, false, false, true, false, true, false, false, false, false, true, true, true, true] := by
  decide

/-- R212. -/
theorem test_msgLdbits : field State.mbits (exec (.msgLdbits [1, 1, 0]) base) = some [true, true, false] := by decide

/-- P4 step 4: the 24 frame bits of an empty 1G message. -/
theorem test_frmBuild : field State.fbits (exec .frmBuild base) =
    some (List.replicate 15 true ++ [false, false, false, true, false, true, true, true, true]) := by decide

/-- P2 step 3: one byte `0xFF`. -/
theorem test_asm : field (fun t => (t.fbits.length, t.obuf.length, t.obuf[1023]?, t.obuf[1031]?, t.obuf[1032]?))
    (exec .asm { base with mbits := List.replicate 8 true }) =
    some (32, 1536, some carrierSample, some phasePlus, some phaseMinus) := by decide +kernel

/-- V-G1: 249 bits; then no `SPC`. -/
theorem test_asm_2g_errors :
    field State.err (exec .asm { base with cfg := 1, mbits := List.replicate 249 false }) =
      some (some .invalidInput) ∧
    field State.err (exec .asm { base with cfg := 1, span := 0, mbits := List.replicate 250 false }) =
      some (some .configurationMismatch) := by
  have h : ({ base with cfg := 1, span := 0, mbits := List.replicate 250 false } : State).halfLength = 0 :=
    halfLength_of_span_zero rfl
  refine ⟨by decide +kernel, ?_⟩
  simp only [exec, execAsm, asm2G, h]
  decide +kernel

/-- The output of a short playback: three different samples. -/
def playing : State := { base with obuf := [carrierSample, phasePlus, phaseMinus], ready := true }

/-- R227: a partial last chunk is padded and raises the signal, once. -/
theorem test_pull_finite : field (fun t => (t.rdidx, t.eos, t.resp)) (exec (.pull 2) { playing with rdidx := 2 }) =
    some (3, true, some (.ok true [0x3EE83DC0, 0xBF64262A, 0, 0])) ∧
    field (fun t => (t.rdidx, t.resp)) (exec (.pull 1) { playing with rdidx := 3, eos := true }) =
      some (3, some (.ok false [0, 0])) := by decide

/-- R226: cyclic playback wraps. -/
theorem test_pull_cyclic : field (fun t => (t.rdidx, t.resp)) (exec (.pull 2) { playing with cfg := 4, rdidx := 2 }) =
    some (1, some (.ok false [0x3EE83DC0, 0xBF64262A, 0x3F800000, 0])) := by decide

/-- R229. -/
theorem test_rewind : field (fun t => (t.rdidx, t.eos)) (exec .rewind { playing with rdidx := 3, eos := true }) =
    some (0, false) ∧ field State.err (exec .rewind base) = some (some .invalidInput) := by decide

/-- V-E4. -/
theorem test_selfchk : field (fun t => (t.res, t.lfsrI, t.resp)) (exec .selfchk base) =
    some (1, 0, some (.ok false [1])) := by decide +kernel
theorem test_verify :
    field State.resp (exec (.verify 0x1AC3FC 0x3FC358BA 0x5411FB73) base) = some (some (.ok false [1])) ∧
    field State.err (exec (.verify 0x000041 0x80000108 0x421284A1) base) = some (some .verificationFailure) := by
  decide +kernel

/-- P1 step 12: a faulted CORE refuses `LFSR.STEPI` with the latched kind. -/
theorem test_refused : field (fun t => (t.resp, t.lfsrI))
    (exec .lfsrStepi { base with err := some .verificationFailure, lfsrI := 0x485634 }) =
    some (some (.error .verificationFailure), 0x485634) := by decide

/-- V-E2: an illegal word is answered `80000001`, and the word after it is the next command. -/
theorem test_step_illegal : field (fun t => (t.resp.map Response.words, t.statusWord, t.port))
    (step { base with port := [0x00000000, 0x01000000] }) = some (some [0x80000001], 0x10, [0x01000000]) := by decide

/-- R310: the reset input is taken before the next command. -/
theorem test_step_resetIn : field (fun t => (t.cfg, t.port, t.resetIn))
    (step { base with cfg := 5, resetIn := true, port := [0x7E000000] }) = some (0, [0x7E000000], false) := by decide

/-- The header words of R108. -/
theorem test_headers : (Response.ok true [5]).words = [0x40000000, 5] ∧
    (Response.error .configurationMismatch).words = [0x80000003] := by decide

/-- An instruction placed by `withFetchWord` is the next to run. -/
theorem test_withFetchWord : step (State.reset.withFetchWord 32 0x14000003) =
    exec (.lfsrGeni 3) { State.reset with port := [] } := rfl

/-! ### Witnesses

For each statement with hypotheses, states and operands that meet them, clause by clause, at the ends of their ranges. -/

/-- `playing` meets the invariant in finite playback, at its start and at its end, and in cyclic playback. -/
theorem witness_inv : playing.Inv ∧ ({ playing with rdidx := 3, eos := true } : State).Inv ∧
    ({ playing with cfg := 4, rdidx := 2 } : State).Inv := by
  refine ⟨⟨?_, ?_, ?_, ?_, ?_, ?_, ?_, ?_, ?_, ?_⟩, ⟨?_, ?_, ?_, ?_, ?_, ?_, ?_, ?_, ?_, ?_⟩,
    ⟨?_, ?_, ?_, ?_, ?_, ?_, ?_, ?_, ?_, ?_⟩⟩
  all_goals first
    | exact fun h => absurd rfl h
    | (unfold State.buffersFit; decide)
    | decide +kernel

theorem witness_DecodeOfEncodeIsTheInstruction :
    (Instr.pull 0xFFFFFF).wf = true ∧ (Instr.msgLdb []).wf = true ∧
      (Instr.msgLdb (List.replicate (2 ^ 24 - 1) 0)).wf = true := by
  refine ⟨rfl, rfl, ?_⟩
  simp only [Instr.wf, payloadFits, List.length_replicate, decide_eq_true_eq]; omega

theorem witness_EncodeOfDecodeIsTheWords :
    decode [0x60000001, 0x000000FF, 0x63000000] = .command (.msgLdb [0xFF]) [0x63000000] := by decide

theorem witness_StepRunsTheDecodedCommand :
    ({ base with port := [0x50000001, 0x63000000] } : State).resetIn = false ∧
      decode ({ base with port := [0x50000001, 0x63000000] } : State).port =
        .command (.bplBit 1) [0x63000000] := by decide

theorem witness_IllegalWordRaisesInvalidInput :
    (({ base with port := [0x05000000] } : State).resetIn = false ∧
      (∀ r ∈ opTable, r.selects 0x05000000 = false) ∧ base.err = none) ∧
    (({ base with port := [0x12000001], err := some .invalidSeed } : State).resetIn = false ∧
      (∀ r ∈ opTable, r.selects 0x12000001 = false)) := by decide

/-- One word, two words, a counted payload, none. -/
theorem witness_EveryCommandConsumesItsPayload :
    base.resetIn = false ∧ (0x02000001#32 >>> 24 = 0x02 ∧ 1 ≤ [10#32].length) ∧
      (0x7F000001#32 >>> 24 = 0x7F ∧ 2 ≤ [0#32, 0#32].length) ∧
      (0x60000003#32 >>> 24 = 0x60 ∧ (0x60000003#32 &&& 0x00FFFFFF).toNat = 3 ∧ 3 ≤ [1#32, 2#32, 3#32].length) ∧
      (0 ≤ ([] : List Word).length) := by decide

theorem witness_StepWaitsForAWholeCommand :
    base.resetIn = false ∧ base.port = [] ∧ ([] : List Word).length < payloadCount 0x02000001 ∧
      [0#32].length < payloadCount 0x7F000001 := by decide

theorem witness_ResetInputHasTheEffectOfReset : ({ base with resetIn := true, cfg := 5 } : State).resetIn = true := rfl

/-- The step is a `PULL 1` of `playing`. -/
theorem witness_EveryStepKeepsTheInvariant : ({ playing with port := [0x70000001] } : State).Inv ∧
    field State.rdidx (step { playing with port := [0x70000001] }) = some 1 := by
  obtain ⟨h, -, -⟩ := witness_inv
  exact ⟨⟨h.ready_iff, h.idle, h.faulted, h.rdidx_le, h.cyclic, h.finite, h.peak, h.taps, h.fit, h.seed⟩, by decide⟩

/-- `CSR.WR 7` raises `InvalidInput`, run alone and as a step. -/
theorem witness_FailedOperationWritesOnlyTheErrorState :
    base.err = none ∧ field State.err (exec (.csrWr 7 0) base) = some (some .invalidInput) ∧
      base = { ({ base with port := [0x02000007, 0] } : State) with port := [] } ∧
      ({ base with port := [0x02000007, 0] } : State).resetIn = false ∧
      decode [0x02000007, 0] = .command (.csrWr 7 0) [] := by decide

theorem witness_FaultedCoreRefusesAllButThreeOperations :
    ({ base with err := some .invalidSeed } : State).err = some .invalidSeed ∧ (16#24).toNat ≤ 16 ∧
      16 < (17#24).toNat ∧ (7#24).toNat ≤ 7 ∧ 7 < (8#24).toNat := by decide

theorem witness_OnlyThreeOperationsMakeCoreReady :
    (base.ready = false ∧ field State.ready (exec (.bplBit 0) base) = some true) ∧
      field State.err (exec .reset { base with err := some .invalidSeed }) = some none := by decide

theorem witness_OutputBufferIsWrittenByThreeOperationsOnly :
    base.obuf = [] ∧ (field State.obuf (exec (.bplBit 0) base)).isSome = true ∧
      field State.obuf (exec (.bplBit 0) base) ≠ some [] := by decide

theorem witness_ResultRegisterHoldsTheScalarReturned :
    base.res = 0 ∧ field State.res (exec (.csrRd 2) base) = some 31 := by decide

theorem witness_EndOfStreamIsRaisedOnlyByTheLastPull : playing.Inv ∧
    field State.resp (exec (.pull 3) playing) =
      some (some (.ok true [0x3F800000, 0, 0x3EE83DC0, 0x3F64262A, 0x3EE83DC0, 0xBF64262A])) :=
  ⟨witness_inv.1, by decide⟩

theorem witness_EffectDependsOnStateAndOperandsOnly : ∃ t, exec (.lfsrLdi 1) base = .next t := ⟨_, rfl⟩

/-- Every clause, each at the boundary of its range. -/
theorem witness_CsrWriteSetsTheRegisterOrRefuses :
    base.err = none ∧ base.ready = false ∧ 7 ≤ (7#24).toNat ∧ playing.err = none ∧ playing.ready = true ∧
      8 ≤ (8#32).toNat ∧ 65536 ≤ (65536#32).toNat ∧ (3 ≤ (3#24).toNat ∧ (6#24).toNat ≤ 6) ∧
      2 ^ 23 ≤ (0x800000#32).toNat ∧ (7#32).toNat < 8 ∧ (65535#32).toNat < 65536 ∧
      (0 < (1#32).toNat ∧ (0x7FFFFF#32).toNat < 2 ^ 23) := by decide

theorem witness_CsrReadReturnsTheValueWritten :
    base.err = none ∧ field State.err (exec (.csrWr 3 0x7FFFFF) base) = some none := by decide

/-- The last register and the first number past it, faulted and not. -/
theorem witness_CsrReadReturnsTheRegister :
    field State.res (exec (.csrRd 16) base) = some 0 ∧ 17 ≤ (17#24).toNat ∧ base.err = none ∧
      ({ base with err := some .invalidSeed } : State).err ≠ none := by decide

theorem witness_StatusWordHoldsTheFlags : base.err = none := rfl

theorem witness_BufferReadReturnsCountAndElements :
    field State.resp (exec (.bufRd 7) base) = some (some (.ok false [0])) ∧ 8 ≤ (8#24).toNat ∧ base.err = none ∧
      ({ base with err := some .invalidSeed } : State).err ≠ none := by decide

theorem witness_SelfCheckAlwaysPasses : base.err = none ∧ 0 < 64 ∧ 63 < 64 := by decide

theorem witness_VerifyComparesTheFirst64Bits :
    base.err = none ∧ 2 ^ 23 ≤ (0x800000#24).toNat ∧ (0 < (1#24).toNat ∧ (0x7FFFFF#24).toNat < 2 ^ 23) ∧
      (∀ k, k < 64 → (0x80000108#32 ++ 0x421284A1#32).getLsbD (63 - k) = outputBit 1 k) ∧
      (∃ k, k < 64 ∧ (0x80000108#32 ++ 0x421284A1#32).getLsbD (63 - k) ≠ outputBit 0x41 k) ∧
      field State.err (exec (.verify 1 0x80000108 0x421284A1) base) = some none := by
  refine ⟨rfl, by decide, by decide, by decide +kernel, ⟨6, by decide, by decide +kernel⟩, by decide +kernel⟩

theorem witness_LoadAcceptsExactlyTheValidSeeds :
    base.err = none ∧ (0 < (1#24).toNat ∧ (0x7FFFFF#24).toNat < 2 ^ 23) ∧ (0x800000#24).getLsbD 23 = true := by decide

theorem witness_StepShiftsInTheFeedbackBit :
    base.err = none ∧ base.lfsrI = 0 ∧ base.lfsrQ = 0 ∧
      (({ base with lfsrI := 1, lfsrQ := 0x7FFFFF } : State).lfsrI ≠ 0 ∧
        ({ base with lfsrI := 1, lfsrQ := 0x7FFFFF } : State).lfsrQ ≠ 0) := by decide

theorem witness_GenerateReplacesTheChipBuffer :
    base.err = none ∧ base.lfsrI = 0 ∧ base.lfsrQ = 0 ∧
      (({ base with lfsrI := 1, lfsrQ := 0x7FFFFF } : State).lfsrI ≠ 0 ∧
        ({ base with lfsrI := 1, lfsrQ := 0x7FFFFF } : State).lfsrQ ≠ 0) := by decide

theorem witness_OutputBitsSatisfyTheRecurrence : 0 < 23 ∧ 22 < 23 := by decide

theorem witness_LfsrStepIsABijectionFixingOnlyZeroToZero :
    advance 0x040000 = 0x420000 ∧ (1 : LfsrState) ≠ 0 := by decide

theorem witness_NonZeroStatesLieOnOneCycle :
    (0 < 1 ∧ 1 < 2 ^ 23 - 1) ∧ (0 < 2 ^ 23 - 2 ∧ 2 ^ 23 - 2 < 2 ^ 23 - 1) ∧ (0x7FFFFF : LfsrState) ≠ 0 :=
  ⟨by omega, by omega, by decide⟩

theorem witness_LoadedLfsrNeverBecomesZero :
    field State.lfsrI (exec .lfsrStepi { base with lfsrI := 1, lfsrQ := 1 }) = some 0x400000 ∧
      Instr.lfsrStepi ≠ .reset ∧ ({ base with lfsrI := 1, lfsrQ := 1 } : State).lfsrQ ≠ 0 := by decide

theorem witness_BitLoadsReplaceTheirBuffer :
    base.err = none ∧ [1#32, 0#32].length < 2 ^ 24 ∧ (∀ w ∈ [1#32, 0#32], w = 0 ∨ w = 1) ∧
      (∃ w ∈ [0#32, 2#32], 1 < w.toNat) :=
  ⟨rfl, by simp, by simp, 2#32, by simp, by decide⟩

theorem witness_SpreadWritesBothChannels :
    base.err = none ∧ base.lfsrI = 0 ∧ ({ base with lfsrI := 1, lfsrQ := 1 } : State).lfsrI ≠ 0 ∧
      ({ base with lfsrI := 1, lfsrQ := 1 } : State).lfsrQ ≠ 0 ∧
      2 ^ 25 - 1 ≤ (List.replicate (2 ^ 25 - 1) false).length ∧ (List.replicate (2 ^ 25 - 2) false).length < 2 ^ 25 - 1 := by
  refine ⟨rfl, rfl, by decide, by decide, ?_, ?_⟩ <;> simp only [List.length_replicate] <;> omega

theorem witness_SpreadChipIsOutputBitXorDataBit :
    (0 < 256 ∧ 255 < 256) ∧ [true, false][2 * 0]? = some true ∧ [true, false][2 * 0 + 1]? = some false := by decide

theorem witness_ChangingABitNegatesItsChipGroup :
    [true, false][0]? = some true ∧ [true, false][1]? = some false := by decide

/-- A position that is special (`SPC` 16, `k` 5) and one that is not. -/
theorem witness_PulseIsTheClosedFormRrcPulse :
    0 < 1 ∧ 0 < 16 ∧ 16 * (5 : Int).natAbs = 5 * 16 ∧ 16 * (4 : Int).natAbs ≠ 5 * 16 := by decide

/-- Positions `1 / (j + 1)`, and positions `(5 (j + 1) + 1) / (16 (j + 1))`. -/
theorem witness_SpecialPulseValuesAreTheLimits :
    ((∀ j : Nat, 0 < j + 1) ∧ (∀ _ : Nat, (1 : Int) ≠ 0) ∧
      Filter.Tendsto (fun j : Nat => ((1 : Int) : ℝ) / ((j + 1 : Nat) : ℝ)) Filter.atTop (nhds 0)) ∧
    ((∀ j : Nat, 0 < 16 * (j + 1)) ∧ (∀ j : Nat, 16 * (5 * ((j : Int) + 1) + 1).natAbs ≠ 5 * (16 * (j + 1))) ∧
      Filter.Tendsto (fun j : Nat => |((5 * ((j : Int) + 1) + 1 : Int) : ℝ) / ((16 * (j + 1) : Nat) : ℝ)|) Filter.atTop
        (nhds (5 / 16))) := by
  have h := tendsto_one_div_add_atTop_nhds_zero_nat (𝕜 := ℝ)
  refine ⟨⟨fun j => by omega, fun _ => by decide, by simpa using h⟩, fun j => by omega, fun j => by omega, ?_⟩
  have h2 : Filter.Tendsto (fun j : Nat => |5 / 16 + 1 / 16 * (1 / ((j : ℝ) + 1))|) Filter.atTop (nhds (5 / 16)) := by
    have := ((h.const_mul (1 / 16)).const_add (5 / 16)).abs
    simpa [abs_of_pos] using this
  refine h2.congr fun j => ?_
  have hj : (j : ℝ) + 1 ≠ 0 := by positivity
  congr 1
  push_cast
  field_simp

theorem witness_ExactTapsHaveUnitEnergy : 0 < 1 ∧ (0 ≤ 2 * 2 ∧ 4 ≤ 2 * 2) ∧ (0 ≤ 2 ∧ 2 ≤ 2) ∧ (0 : Nat) = 0 := by decide

/-- With `SPAN` 0 the half-length is 0 in either unit. The half-length reaches the capacity only where the span counts
chips: 65535 chips of 32769 samples. -/
theorem witness_TapsOperationWritesUnitEnergyTaps :
    base.err = none ∧ base.spc = 0 ∧ ({ base with spc := 1, span := 0 } : State).spc ≠ 0 ∧
      0 = (match Config.spanUnit with
        | .chips => (0#16).toNat * (1#16).toNat
        | .samples => (0#16).toNat) ∧ 2 * 0 + 1 < 2 ^ 32 ∧
      (Config.spanUnit = .chips →
        2 ^ 32 ≤ 2 * (match Config.spanUnit with
          | .chips => (0xFFFF#16).toNat * (0x8001#16).toNat
          | .samples => (0xFFFF#16).toNat) + 1) := by
  refine ⟨rfl, rfl, by decide, ?_, by decide, ?_⟩
  · cases Config.spanUnit <;> rfl
  · intro h
    rw [h]
    decide

theorem witness_ShapeOperationsFilterTheirChannel :
    base.err = none ∧ base.spc = 0 ∧ ({ base with spc := 2 } : State).spc ≠ 0 ∧ ({ base with spc := 2 } : State).taps = [] ∧
      ({ base with spc := 2, taps := [one64] } : State).taps ≠ [] ∧
      2 ^ 32 ≤ (List.replicate (2 ^ 31) Chip.plus).length * (2#16).toNat ∧
      (List.replicate (2 ^ 31 - 1) Chip.plus).length * (2#16).toNat < 2 ^ 32 := by
  refine ⟨rfl, rfl, by decide, rfl, by decide, ?_, ?_⟩ <;> simp only [List.length_replicate] <;> decide

theorem witness_ShapeIsTheSumOverNearbyChips :
    0 < 2 ∧ ([exprInt 1, exprInt 2, exprInt 3] : List RealExpr).length = 2 * 1 + 1 ∧
      (0 < [Chip.minus, Chip.plus].length * 2 ∧ 3 < [Chip.minus, Chip.plus].length * 2) := by decide

/-- `SPC` 0; no sample kept (`SPC` 1, one chip on I alone); one sample kept; and the three capacities at their bounds. -/
theorem witness_ModulatorWritesAUnitPeakOutput :
    base.err = none ∧ base.spc = 0 ∧ ({ base with spc := 1, span := 0 } : State).spc ≠ 0 ∧
      0 = (match Config.spanUnit with
        | .chips => (0#16).toNat * (1#16).toNat
        | .samples => (0#16).toNat) ∧ 2 * 0 + 1 < 2 ^ 32 ∧
      0 = min ([Chip.plus].length * 1) (([] : List Chip).length * 1 + 1 / 2) ∧
      0 < min ([Chip.plus].length * 1) ([Chip.minus].length * 1 + 1 / 2) ∧
      2 ^ 32 ≤ (List.replicate (2 ^ 31) Chip.plus).length * 2 ∧
      2 ^ 32 ≤ (List.replicate (2 ^ 31 - 1) Chip.plus).length * 2 + 4 / 2 ∧
      (List.replicate (2 ^ 31 - 1) Chip.plus).length * 2 < 2 ^ 32 ∧
      ([carrierSample] : List Sample)[0]? = some carrierSample ∧ 0 < 2 / 2 := by
  refine ⟨rfl, rfl, by decide, ?_, by decide, by decide, by decide, ?_, ?_, ?_, rfl, by decide⟩
  · cases Config.spanUnit <;> rfl
  all_goals simp only [List.length_replicate]; decide

/-- A CORE ready to modulate: one sample per chip, a half-span of 0, one chip on each channel. -/
def modulating : State := { base with spc := 1, span := 0, ichip := [.plus], qchip := [.minus] }

/-- `modulating` after `RRC.TAPS`, and then after `RRC.SHAPEI`. -/
def tapped : State := { modulating with taps := [one64], resp := some .done }
def shaped : State := { tapped with ishp := storedShape [.plus] [one64] 1 }

theorem witness_ModulatorEqualsTheStepByStepChain : modulating.err = none ∧ ∃ a b c u : State,
    exec .rrcTaps modulating = .next a ∧ exec .rrcShapei a = .next b ∧ exec .rrcShapeq b = .next c ∧ c.err = none ∧
      exec .oqpskMod modulating = .next u ∧ u.err = none := by
  have h : modulating.halfLength = 0 := halfLength_of_span_zero rfl
  obtain ⟨u, hu⟩ := exec_answers_next .oqpskMod modulating
  have he : field State.err (exec .oqpskMod modulating) = some none := by
    simp only [exec, execOqpskMod, h]
    decide +kernel
  rw [hu] at he
  refine ⟨rfl, tapped, shaped, { shaped with qshp := storedShape [.minus] [one64] 1 }, u, ?_, rfl, rfl, rfl, hu,
    Option.some.inj he⟩
  simp only [exec, execRrcTaps, h, storedTaps_zero]
  rfl

theorem witness_ExactPeakIsZeroExactlyWhenNothingIsKept :
    0 < 1 ∧ peakIsZero [.plus] [.minus] 1 = false ∧ peakIsZero [.plus] [] 1 = true := by decide

theorem witness_BiphaseBitWritesSixteenSamples : base.err = none ∧ 1 < (2#24).toNat := by decide

theorem witness_ByteLoadIsMostSignificantBitFirst :
    base.err = none ∧ [0xFF#32].length < 2 ^ 24 ∧ (∀ w ∈ [0xFF#32], w.toNat ≤ 0xFF) ∧
      ([0xFF#32][0]? = some 0xFF#32 ∧ 0 < 8 ∧ 7 < 8) ∧ (∃ w ∈ [0x100#32], 0xFF < w.toNat) :=
  ⟨rfl, by simp, by simp, by decide, 0x100#32, by simp, by decide⟩

theorem witness_FrameBitsArePreambleSyncMessage :
    base.err = none ∧ (base.cfg.getLsbD 0 = false ∧ base.mbits.length % 8 = 0 ∧ 24 + base.mbits.length < 2 ^ 32) ∧
      [true].length % 8 ≠ 0 ∧ (1#3).getLsbD 0 = true ∧ [true].length ≠ 250 ∧ (List.replicate 250 true).length = 250 := by
  decide +kernel

theorem witness_AssembleFirstGenerationFrame :
    base.err = none ∧ base.cfg.getLsbD 0 = false ∧ base.mbits.length % 8 = 0 ∧
      1024 + 16 * (24 + base.mbits.length) < 2 ^ 32 ∧ [true].length % 8 ≠ 0 ∧ (0 < 1024 ∧ 1023 < 1024) ∧
      ((List.replicate 15 true)[0]? = some true ∧ 0 < 16 ∧ 15 < 16) := by decide

/-- A CORE ready to assemble a 2G frame of zeros: one sample per chip, a half-span of 0. -/
def assembling : State :=
  { base with cfg := 1, spc := 1, span := 0, mbits := List.replicate 250 false, lfsrI := 1, lfsrQ := 0x41 }

theorem witness_AssembleSecondGenerationFrame :
    assembling.err = none ∧ assembling.cfg.getLsbD 0 = true ∧
      0 = (match Config.spanUnit with
        | .chips => assembling.span.toNat * assembling.spc.toNat
        | .samples => assembling.span.toNat) ∧
      1 = (if assembling.cfg.getLsbD 1 then assembling.seedIT else assembling.seedIN) ∧
      0x41 = (if assembling.cfg.getLsbD 1 then assembling.seedQT else assembling.seedQN) ∧
      assembling.mbits.length = 250 ∧ 2 * 0 + 1 < 2 ^ 32 ∧ assembling.spc ≠ 0 ∧
      (1 : LfsrState) ≠ 0 ∧ (0x41 : LfsrState) ≠ 0 ∧
      ({ assembling with mbits := [] } : State).mbits.length ≠ 250 ∧ ({ assembling with spc := 0 } : State).spc = 0 ∧
      0 = (if ({ assembling with seedQN := 0 } : State).cfg.getLsbD 1 then ({ assembling with seedQN := 0 } : State).seedQT
        else ({ assembling with seedQN := 0 } : State).seedQN) := by
  refine ⟨rfl, rfl, ?_, ?_⟩
  · cases Config.spanUnit <;> rfl
  · decide +kernel

/-- No channel gets more chips than there are bits, times the chips of one bit. -/
theorem spreadFrom_length_le (p : Nat) (fb : List Bool) (cpb : Nat) (si sq : LfsrState) :
    (spreadFrom p fb cpb si sq).iChips.length ≤ cpb * fb.length ∧
      (spreadFrom p fb cpb si sq).qChips.length ≤ cpb * fb.length := by
  induction fb generalizing p si sq with
  | nil => simp [spreadFrom]
  | cons b fb ih =>
    simp only [spreadFrom, List.length_cons, Nat.mul_add, Nat.mul_one]
    split
    · simp only [List.length_append, chipGroup_length]
      have := ih (p + 1) (chipGroup b cpb si).2 sq
      omega
    · simp only [List.length_append, chipGroup_length]
      have := ih (p + 1) si (chipGroup b cpb sq).2
      omega

/-- Two bits give each channel its first chips. -/
theorem spread_two_length (a b : Bool) (fb : List Bool) (cpb : Nat) (si sq : LfsrState) :
    cpb ≤ (spread (a :: b :: fb) cpb si sq).iChips.length ∧ cpb ≤ (spread (a :: b :: fb) cpb si sq).qChips.length := by
  simp [spread, spreadFrom]

/-- `assembling` after `FRM.BUILD`, and then after `DSSS.SPREAD`. -/
def framed : State := { assembling with fbits := frameBits .g2 false (List.replicate 250 false), resp := some .done }
def spreaded : State :=
  let r := spread framed.fbits Config.chipsPerBit framed.lfsrI framed.lfsrQ
  State.respond { framed with ichip := r.iChips, qchip := r.qChips, lfsrI := r.stateI, lfsrQ := r.stateQ } .done

/-- At one sample per chip and a half-span of 0, `OQPSK.MOD` completes with chips on both channels. -/
theorem modulates {s : State} (he : s.err = none) (hs : s.spc = 1) (hp : s.span = 0)
    (hi : 0 < s.ichip.length ∧ s.ichip.length ≤ 76800) (hq : 0 < s.qchip.length ∧ s.qchip.length ≤ 76800) :
    field State.err (exec .oqpskMod s) = some none := by
  have h : s.halfLength = 0 := halfLength_of_span_zero hp
  have h1 : (1 : BitVec 16).toNat = 1 := rfl
  have ho : overCapacity (2 * 0 + 1) = false ∧ overCapacity (s.ichip.length * 1) = false ∧
      overCapacity (s.qchip.length * 1 + offsetSamples 1) = false := by
    simp only [overCapacity_eq_false, offsetSamples]
    omega
  have hk : peakIsZero s.ichip s.qchip 1 = false := by
    simp only [peakIsZero, keptLength, beq_eq_false_iff_ne]
    omega
  simp only [exec, execOqpskMod, h, hs, h1, ho, hk]
  simp [State.perform, he, field, State.respond, State.setOutput]

/-- `OQPSK.MOD` then completes. -/
theorem spreaded_modulates : field State.err (exec .oqpskMod spreaded) = some none := by
  have hl := spreadFrom_length_le 0 framed.fbits Config.chipsPerBit framed.lfsrI framed.lfsrQ
  have hm := spread_two_length false false (List.replicate 298 false) Config.chipsPerBit framed.lfsrI framed.lfsrQ
  have hf : framed.fbits = false :: false :: List.replicate 298 false := by decide +kernel
  have hn : Config.chipsPerBit * framed.fbits.length = 76800 := by decide +kernel
  have hc : 0 < Config.chipsPerBit := by decide
  rw [← hf] at hm
  rw [hn] at hl
  exact modulates rfl rfl rfl ⟨Nat.lt_of_lt_of_le hc hm.1, hl.1⟩ ⟨Nat.lt_of_lt_of_le hc hm.2, hl.2⟩

theorem witness_AssembleEqualsTheStepByStepChain : assembling.err = none ∧ assembling.cfg.getLsbD 0 = true ∧
    assembling.lfsrI = (if assembling.cfg.getLsbD 1 then assembling.seedIT else assembling.seedIN) ∧
    assembling.lfsrQ = (if assembling.cfg.getLsbD 1 then assembling.seedQT else assembling.seedQN) ∧
    ∃ a b c u : State, exec .frmBuild assembling = .next a ∧ exec .dsssSpread a = .next b ∧
      exec .oqpskMod b = .next c ∧ c.err = none ∧ exec .asm assembling = .next u := by
  obtain ⟨u, hu⟩ := exec_answers_next .asm assembling
  obtain ⟨c, hc⟩ := exec_answers_next .oqpskMod spreaded
  have he := spreaded_modulates
  rw [hc] at he
  have h1 : messageLengthOk assembling.gen assembling.mbits.length = true := by decide +kernel
  have h2 : overCapacity (frameBits assembling.gen assembling.test assembling.mbits).length = false := by decide +kernel
  have h3 : overCapacity (Config.chipsPerBit * ((framed.fbits.length + 1) / 2)) = false := by decide +kernel
  refine ⟨rfl, rfl, by decide, by decide, framed, spreaded, c, u, ?_, ?_, hc, Option.some.inj he, hu⟩
  · simp only [exec, execFrmBuild, h1, h2]
    rfl
  · have h4 : ¬(framed.lfsrI = 0 ∨ framed.lfsrQ = 0) := by decide
    simp only [exec, execDsssSpread, h3, if_neg h4]
    exact State.perform_finish rfl _ _

theorem witness_RewindRestartsPlayback :
    playing.err = none ∧ playing.ready = true ∧ base.err = none ∧ base.ready = false := by decide

theorem witness_CyclicPullWrapsAround :
    playing.err = none ∧ playing.ready = true ∧ ({ playing with cfg := 4 } : State).cfg.getLsbD 2 = true ∧
      playing.obuf ≠ [] ∧ playing.obuf.length < 2 ^ 32 ∧ 0 < (0xFFFFFF#24).toNat := by decide

/-- Not at the end; at the end for the first time; after the end; an empty chunk. -/
theorem witness_FinitePullPadsAndSignalsOnce :
    (playing.err = none ∧ playing.ready = true ∧ playing.cfg.getLsbD 2 = false ∧
      playing.rdidx.toNat ≤ playing.obuf.length ∧ playing.obuf.length < 2 ^ 32) ∧
    (2 = min (2#24).toNat (playing.obuf.length - playing.rdidx.toNat) ∧
      ¬(playing.rdidx.toNat + 2 = playing.obuf.length ∧ playing.eos = false)) ∧
    (3 = min (4#24).toNat (playing.obuf.length - playing.rdidx.toNat) ∧ playing.rdidx.toNat + 3 = playing.obuf.length ∧
      playing.eos = false) ∧
    (({ playing with rdidx := 3, eos := true } : State).Inv ∧
      ({ playing with rdidx := 3, eos := true } : State).rdidx.toNat ≤ playing.obuf.length) ∧ playing.Inv := by
  refine ⟨by decide, by decide, by decide, ⟨witness_inv.2.1, by decide⟩, witness_inv.1⟩

/-- A first chunk of 1, a second of 2 that reaches the end, and both at once. -/
theorem witness_PullsInPiecesDeliverTheSameStream : playing.Inv ∧ playing.err = none ∧ playing.ready = true ∧
    (3#24).toNat = (1#24).toNat + (2#24).toNat ∧ ∃ a b c x y z, exec (.pull 1) playing = .next a ∧
      exec (.pull 2) a = .next b ∧ exec (.pull 3) playing = .next c ∧ a.resp = some (.ok false x) ∧
      b.resp = some (.ok true y) ∧ c.resp = some (.ok true z) :=
  ⟨witness_inv.1, rfl, rfl, rfl, _, _, _, _, _, _, rfl, rfl, rfl, rfl, rfl, rfl⟩

end Sys2Proof.Tests
end

section
/-! PROOFS for 10_state.md: what `RESET`, `CSR.RD` and `CSR.WR` do where their operand tests decide, the flags as a
number in `STATUS`, and from these O11 and O24. -/

namespace Sys2Proof.Machine

/-! ### The operations -/

/-- `RESET` ends in the restarted state, faulted or not (46_system.md R251; 60_exceptions.md R278). -/
theorem exec_reset (s : State) : exec .reset s = .next (s.restart.respond .done) :=
  State.performAlways_finish s s.restart .done

/-- `CSR.RD` of a register that exists, faulted or not (46_system.md R253). -/
theorem exec_csrRd {r : Operand} (hr : r.toNat ≤ 16) (s : State) :
    exec (.csrRd r) s =
      .next (State.respond { s with res := csrRead r.toNat s } (.ok false [csrRead r.toNat s])) := by
  have ran : exec (.csrRd r) s = s.performAlways (s.finishResult (csrRead r.toNat s)) := by
    simp [exec, execCsrRd, Nat.not_lt.mpr hr]
  rw [ran, State.finishResult, State.performAlways_finish]

/-- `CSR.WR` raises `InvalidInput` for the read-only registers, as for the numbers that name none (46_system.md R252). -/
theorem exec_csrWr_not_writable {r : Operand} {s : State} (hr : 7 ≤ r.toNat) (he : s.err = none) (v : Word) :
    exec (.csrWr r v) s = .next (s.enterError .invalidInput) := by
  have ran : exec (.csrWr r v) s = s.perform (.raise .invalidInput) := by
    simp [exec, execCsrWr, hr]
  rw [ran, State.perform_raise he]

/-! ### The flags in `STATUS` -/

theorem State.errCode_of_none {s : State} (h : s.err = none) : s.errCode = 0 := by
  simp [State.errCode, h]

theorem State.errCode_of_some {s : State} {k : ErrKind} (h : s.err = some k) : s.errCode = k.code := by
  simp [State.errCode, h]

/-- The three fields of `STATUS` do not overlap, so the word is their sum, each at its own weight (10_state.md R35). -/
theorem State.statusWord_toNat (s : State) :
    s.statusWord.toNat = (if s.ready then 1 else 0) + 2 * (if s.eos then 1 else 0) + 16 * s.errCode.toNat := by
  unfold State.statusWord
  generalize s.ready = ready, s.eos = eos, s.errCode = code
  revert ready eos code
  decide

/-! ### The obligations -/

/-- Settles O11: the fields of the restarted state are the table of 10_state.md R41. -/
theorem resetGivesEveryRegisterItsResetValue : Obligations.ResetGivesEveryRegisterItsResetValue := by
  intro s
  rw [exec_reset]
  rfl

/-- Settles O24, from the equations of `CSR.RD` and `CSR.WR` at CSR 7 and from `STATUS` as a sum of its fields. -/
theorem statusWordHoldsTheFlags : Obligations.StatusWordHoldsTheFlags := by
  refine ⟨fun s => exec_csrRd (by decide) s, fun s v he => exec_csrWr_not_writable (by decide) he v, rfl, fun s => ?_⟩
  rw [State.statusWord_toNat]
  cases he : s.err with
  | none => rw [State.errCode_of_none he]; rfl
  | some k =>
    rw [State.errCode_of_some he]
    cases k <;> rfl

end Sys2Proof.Machine
end

section
/-! PROOFS for 30_encoding.md: which words no row of the opcode map selects, what a whole command takes from the port,
that no operation writes the port, and from these O7 and O8. -/

namespace Sys2Proof

/-! ### The fields of a command word as the spec writes them -/

/-- The operation code stands in the top byte (30_encoding.md R100). -/
theorem shiftRight_eq_iff_opcodeOf (w : Word) (op : BitVec 8) : w >>> 24 = op.setWidth 32 ↔ opcodeOf w = op := by
  have hw := w.isLt
  have ho := op.isLt
  simp only [opcodeOf, ← BitVec.toNat_inj, BitVec.toNat_ushiftRight, BitVec.toNat_setWidth, BitVec.extractLsb'_toNat,
    Nat.shiftRight_eq_div_pow]
  omega

/-- The operand is what the mask `0x00FFFFFF` keeps (30_encoding.md R100). -/
theorem toNat_and_operandMask (w : Word) : (w &&& 0x00FFFFFF).toNat = (operandOf w).toNat := by
  rw [BitVec.toNat_and, operandOf, BitVec.extractLsb'_toNat, Nat.shiftRight_zero]
  exact Nat.and_two_pow_sub_one_eq_mod w.toNat 24

theorem cmdWord_inj {op op' : BitVec 8} {a a' : Operand} : cmdWord op a = cmdWord op' a' ↔ op = op' ∧ a = a' := by
  refine ⟨fun h => ⟨?_, ?_⟩, fun ⟨ho, ha⟩ => by rw [ho, ha]⟩
  · simpa using congrArg opcodeOf h
  · simpa using congrArg operandOf h

/-- The mask of formats A and AP keeps the operation code and clears the operand (30_encoding.md R113). -/
theorem and_opcodeMask (w : Word) : w &&& 0xFF000000 = cmdWord (opcodeOf w) 0 := by
  calc w &&& 0xFF000000 = cmdWord (opcodeOf w) (operandOf w) &&& cmdWord 0xFF 0 := by rw [cmdWord_fields]; rfl
    _ = cmdWord (opcodeOf w &&& BitVec.allOnes 8) (operandOf w &&& 0#24) := BitVec.and_append
    _ = cmdWord (opcodeOf w) 0 := by rw [BitVec.and_allOnes, BitVec.and_zero]; rfl

/-- The mask of format N keeps the whole word (30_encoding.md R113). -/
theorem and_wordMask (w : Word) : w &&& 0xFFFFFFFF = cmdWord (opcodeOf w) (operandOf w) := by
  rw [cmdWord_fields]
  exact BitVec.and_allOnes

/-- A row selects the words with its operation code; in format N the operand must be 0 too (30_encoding.md R113,
R115). -/
theorem OpRow.selects_iff (r : OpRow) (w : Word) :
    r.selects w = true ↔ opcodeOf w = r.op ∧ (r.format = .n → operandOf w = 0) := by
  rw [OpRow.selects, beq_iff_eq, OpRow.mask, OpRow.pattern]
  cases r.format with
  | n => simp only [and_wordMask, cmdWord_inj, forall_const]
  | a => simp only [and_opcodeMask, cmdWord_inj, and_true, reduceCtorEq, false_implies]
  | ap => simp only [and_opcodeMask, cmdWord_inj, and_true, reduceCtorEq, false_implies]

/-! ### Words that no row selects -/

/-- No row of the opcode map selects the word (30_encoding.md R114). -/
def Unselected (w : Word) : Prop := ∀ r ∈ opTable, r.selects w = false

theorem Unselected.fields_ne_row {w : Word} (h : Unselected w) {r : OpRow} (hr : r ∈ opTable) :
    ¬(opcodeOf w = r.op ∧ (r.format = .n → operandOf w = 0)) := by
  rw [← r.selects_iff w, h r hr]
  exact Bool.false_ne_true

/-- A row with an operand selects every word with its operation code. -/
theorem Unselected.opcode_ne {w : Word} (h : Unselected w) {op : BitVec 8}
    (row : ∃ r ∈ opTable, r.op = op ∧ r.format ≠ .n) : opcodeOf w ≠ op := by
  obtain ⟨r, hr, rfl, hf⟩ := row
  exact fun ho => h.fields_ne_row hr ⟨ho, fun hn => absurd hn hf⟩

/-- A format N command that no row selects is rejected for its operand (30_encoding.md R115). -/
theorem decodeN_of_unselected {w : Word} (h : Unselected w) {op : BitVec 8} (ho : opcodeOf w = op)
    (row : ∃ r ∈ opTable, r.op = op ∧ r.format = .n) (i : Instr) (rest : List Word) :
    ∃ why, decodeN w i rest = .rejected why rest := by
  obtain ⟨r, hr, rfl, -⟩ := row
  have ha : operandOf w ≠ 0 := fun ha => h.fields_ne_row hr ⟨ho, fun _ => ha⟩
  rw [← cmdWord_fields w]
  exact ⟨_, decodeN_nonzero _ _ ha i rest⟩

/-- A word that no row selects is rejected, and has no payload (30_encoding.md R102, R114). -/
theorem decode_of_unselected {w : Word} (h : Unselected w) (rest : List Word) :
    ∃ why, decode (w :: rest) = .rejected why rest := by
  change ∃ why, decodeCommand w rest = .rejected why rest
  unfold decodeCommand
  split
  -- No code of the map; then the codes of format N; then the codes of formats A and AP.
  case h_26 => exact ⟨_, rfl⟩
  case h_1 ho | h_7 ho | h_8 ho | h_12 ho | h_13 ho | h_14 ho | h_15 ho | h_16 ho | h_20 ho | h_21 ho | h_23 ho |
      h_24 ho => exact decodeN_of_unselected h ho (by decide) _ rest
  all_goals exact absurd ‹opcodeOf w = _› (h.opcode_ne (by decide))

/-! ### What a whole command takes from the port -/

/-- `payloadCount` as the cases of 30_encoding.md R102. -/
theorem payloadCount_eq (w : Word) :
    payloadCount w =
      if opcodeOf w = 0x02 then 1 else if opcodeOf w = 0x7F then 2
      else if opcodeOf w = 0x60 ∨ opcodeOf w = 0x61 ∨ opcodeOf w = 0x20 then (operandOf w).toNat else 0 := by
  unfold payloadCount
  split <;> simp_all

/-- What stands at the front is a whole command or a rejected word, and `rest` are the words after it. -/
def Decoded.Leaves (d : Decoded) (rest : List Word) : Prop :=
  (∃ i, d = .command i rest) ∨ ∃ why, d = .rejected why rest

theorem Decoded.Leaves.command (i : Instr) (rest : List Word) : (Decoded.command i rest).Leaves rest := .inl ⟨i, rfl⟩

theorem Decoded.Leaves.rejected (why : Rejection) (rest : List Word) : (Decoded.rejected why rest).Leaves rest :=
  .inr ⟨why, rfl⟩

theorem decodeN_leaves (w : Word) (i : Instr) (rest : List Word) : (decodeN w i rest).Leaves rest := by
  unfold decodeN
  split
  · exact .command i rest
  · exact .rejected _ rest

theorem decodeList_leaves {n : Nat} {ws : List Word} (h : n ≤ ws.length) (mk : List Word → Instr) :
    (decodeList n mk ws).Leaves (ws.drop n) := by
  rw [decodeList, if_neg (Nat.not_lt.mpr h)]
  exact .command _ _

theorem decodeCsrWr_leaves {ws : List Word} (h : 1 ≤ ws.length) (a : Operand) :
    (decodeCsrWr a ws).Leaves (ws.drop 1) := by
  match ws, h with
  | v :: rest, _ => exact .command (.csrWr a v) rest

theorem decodeVerify_leaves {ws : List Word} (h : 2 ≤ ws.length) (a : Operand) :
    (decodeVerify a ws).Leaves (ws.drop 2) := by
  match ws, h with
  | hi :: lo :: rest, _ => exact .command (.verify a hi lo) rest

/-- A command word and its payload leave the words after the payload (30_encoding.md R102). -/
theorem decode_leaves {w : Word} {ws : List Word} (h : payloadCount w ≤ ws.length) :
    (decode (w :: ws)).Leaves (ws.drop (payloadCount w)) := by
  change (decodeCommand w ws).Leaves _
  unfold decodeCommand
  split
  case h_2 ho =>
    have hn : payloadCount w = 1 := by simp [payloadCount_eq, ho]
    rw [hn] at h ⊢
    exact decodeCsrWr_leaves h _
  case h_25 ho =>
    have hn : payloadCount w = 2 := by simp [payloadCount_eq, ho]
    rw [hn] at h ⊢
    exact decodeVerify_leaves h _
  case h_11 | h_18 | h_19 => exact decodeList_leaves h _
  all_goals
    have hn : payloadCount w = 0 := by simp_all [payloadCount_eq]
    rw [hn, List.drop_zero]
  -- Without a payload: format N, no code of the map, format A.
  case h_1 | h_7 | h_8 | h_12 | h_13 | h_14 | h_15 | h_16 | h_20 | h_21 | h_23 | h_24 => exact decodeN_leaves _ _ _
  case h_26 => exact .rejected _ _
  all_goals exact .command _ _

end Sys2Proof

namespace Sys2Proof.Machine

/-! ### No operation writes the port -/

/-- The state an operation ends in, if it does not raise, has the command port of `s`. -/
def Effect.KeepsPort (s : State) : Effect → Prop
  | .raise _ => True
  | .finish t _ => t.port = s.port

@[simp] theorem Effect.keepsPort_raise (s : State) (k : ErrKind) : (Effect.raise k).KeepsPort s := trivial

@[simp] theorem Effect.keepsPort_finish (s t : State) (r : Response) :
    (Effect.finish t r).KeepsPort s ↔ t.port = s.port := .rfl

@[simp] theorem Effect.keepsPort_finishResult (s t : State) (v : Word) :
    (t.finishResult v).KeepsPort s ↔ t.port = s.port := .rfl

/-- An operation that tests before it acts keeps the port if both branches do. -/
@[simp] theorem Effect.keepsPort_ite (s : State) (c : Prop) [Decidable c] (e f : Effect) :
    (if c then e else f).KeepsPort s ↔ (c → e.KeepsPort s) ∧ (¬c → f.KeepsPort s) := by
  split <;> simp_all

theorem State.perform_port {s t : State} {e : Effect} (he : e.KeepsPort s) (h : s.perform e = .next t) :
    t.port = s.port := by
  obtain ⟨k, -, rfl⟩ | ⟨-, k, -, rfl⟩ | ⟨-, u, r, rfl, rfl⟩ := State.perform_cases h
  · exact s.respond_port _
  · exact s.enterError_port k
  · exact he

theorem State.performAlways_port {s t : State} {e : Effect} (he : e.KeepsPort s) (h : s.performAlways e = .next t) :
    t.port = s.port := by
  obtain ⟨_, k, -, -, rfl⟩ | ⟨-, k, -, rfl⟩ | ⟨u, r, rfl, rfl⟩ := State.performAlways_cases h
  · exact s.respond_port _
  · exact s.enterError_port k
  · exact he

@[simp] theorem csrWrite_port (r : Nat) (v : Word) (s : State) : (csrWrite r v s).port = s.port := by
  unfold csrWrite
  split <;> rfl

theorem asm1G_keepsPort (s : State) : (asm1G s).KeepsPort s := by simp [asm1G]

theorem asm2G_keepsPort (s : State) : (asm2G s).KeepsPort s := by simp [asm2G]

/-- No operation writes the command port, whether it completes, raises an error or is refused. -/
theorem exec_port {i : Instr} {s t : State} (h : exec i s = .next t) : t.port = s.port := by
  cases i
  -- `RESET` and `SELFCHK` test no operand or state: unfolded by name, so that unification does not evaluate them.
  case reset =>
    rw [exec, execReset] at h
    exact State.performAlways_port (by simp) h
  case csrRd | bufRd => exact State.performAlways_port (by simp) h
  case asm =>
    refine State.perform_port ?_ h
    split
    · exact asm1G_keepsPort s
    · exact asm2G_keepsPort s
  case selfchk =>
    rw [exec, execSelfchk] at h
    exact State.perform_port (by simp) h
  case pull => exact State.perform_port (by simp [pullCyclic, pullFinite]) h
  all_goals exact State.perform_port (by simp) h

theorem rejectCommand_of_none {s : State} (h : s.err = none) :
    rejectCommand s = .next (s.enterError .invalidInput) := State.perform_raise h _

theorem rejectCommand_of_err {s : State} {k : ErrKind} (h : s.err = some k) :
    rejectCommand s = .next (s.respond (.error k)) := State.perform_of_err h _

theorem rejectCommand_port {s t : State} (h : rejectCommand s = .next t) : t.port = s.port :=
  State.perform_port (Effect.keepsPort_raise s _) h

/-! ### The step on the words at the front of the port -/

theorem step_of_command {s : State} {i : Instr} {rest : List Word} (hr : s.resetIn = false)
    (hd : decode s.port = .command i rest) : step s = exec i { s with port := rest } := by
  simp [step, hr, hd]

theorem step_of_rejected {s : State} {why : Rejection} {rest : List Word} (hr : s.resetIn = false)
    (hd : decode s.port = .rejected why rest) : step s = rejectCommand { s with port := rest } := by
  simp [step, hr, hd]

/-- A step leaves on the port the words after the command it takes or rejects. -/
theorem step_port_of_leaves {s t : State} {rest : List Word} (hr : s.resetIn = false)
    (hd : (decode s.port).Leaves rest) (h : step s = .next t) : t.port = rest := by
  obtain ⟨i, hi⟩ | ⟨why, hw⟩ := hd
  · rw [step_of_command hr hi] at h
    exact exec_port h
  · rw [step_of_rejected hr hw] at h
    exact rejectCommand_port h

/-! ### The obligations -/

/-- Settles O8: what is decoded leaves the words after the payload, and running it leaves them on the port. -/
theorem everyCommandConsumesItsPayload : Obligations.EveryCommandConsumesItsPayload := by
  intro s w ws n hr hp hn hl
  have hc : payloadCount w = n := by
    rw [payloadCount_eq, hn, toNat_and_operandMask]
    simp only [← shiftRight_eq_iff_opcodeOf]
    rfl
  have hd : (decode s.port).Leaves (ws.drop n) := by
    rw [hp, ← hc]
    exact decode_leaves (hc ▸ hl)
  obtain ⟨t, ht⟩ := step_answers_next s
  exact ⟨t, ht, step_port_of_leaves hr hd ht⟩

/-- Settles O7: a word that no row selects is rejected alone, and a rejected word runs as an operation that raises
`InvalidInput`. -/
theorem illegalWordRaisesInvalidInput : Obligations.IllegalWordRaisesInvalidInput := by
  intro s w rest hr hp hw
  obtain ⟨why, hd⟩ := decode_of_unselected hw rest
  rw [← hp] at hd
  rw [step_of_rejected hr hd]
  exact ⟨fun he => rejectCommand_of_none he, fun k he => rejectCommand_of_err he⟩

end Sys2Proof.Machine
end

section
/-! PROOFS for 40_lfsr.md: the step bit by bit, the generated sequence as the output bits, the seed test, the six
operations outside the faulted state, and from these O28, O29, O30 and O32. -/

namespace Sys2Proof.Machine

/-! ### The step, bit by bit -/

/-- The step bit by bit (40_lfsr.md R131); past bit 22 both sides are 0. -/
theorem getLsbD_advance (s : LfsrState) (j : Nat) :
    (advance s).getLsbD j = if j = 22 then s.getLsbD 0 ^^ s.getLsbD 18 else s.getLsbD (j + 1) := by
  have mask : (0x7FFFFF : LfsrState) = BitVec.allOnes 23 := rfl
  rw [advance, mask, BitVec.and_allOnes, BitVec.getLsbD_or, BitVec.getLsbD_ushiftRight, BitVec.getLsbD_shiftLeft,
    BitVec.getLsbD_setWidth, BitVec.getLsbD_ofBool, Nat.add_comm 1 j]
  obtain hj | rfl | hj := Nat.lt_trichotomy j 22
  · simp [Config.fbPos, hj, hj.ne]
  · simp [Config.fbPos, feedback, Config.tapA, Config.tapB]
  · simp [hj.ne', Nat.not_lt.mpr hj]

/-- Below the top the step is a shift. -/
theorem getLsbD_advance_of_lt {s : LfsrState} {j : Nat} (hj : j < 22) :
    (advance s).getLsbD j = s.getLsbD (j + 1) := by
  rw [getLsbD_advance, if_neg hj.ne]

/-- The top bit is the feedback bit. -/
theorem getLsbD_advance_top (s : LfsrState) : (advance s).getLsbD 22 = (s.getLsbD 0 ^^ s.getLsbD 18) :=
  getLsbD_advance s 22

/-- A logic bit as a word is the number 0 or 1 (40_lfsr.md R140). -/
theorem bitWord_eq_ite (b : Bool) : bitWord b = if b then 1 else 0 := by cases b <;> rfl

/-! ### The sequence -/

theorem stateAfter_add (s : LfsrState) (n k : Nat) : stateAfter s (n + k) = stateAfter (stateAfter s n) k := by
  rw [Nat.add_comm]
  exact Function.iterate_add_apply advance k n s

/-- Output bits from a later state are later output bits. -/
theorem outputBit_add (s : LfsrState) (n k : Nat) : outputBit s (n + k) = outputBit (stateAfter s n) k := by
  rw [outputBit, stateAfter_add, outputBit]

theorem outputBit_succ (s : LfsrState) (k : Nat) : outputBit s (k + 1) = outputBit (advance s) k := rfl

theorem generateBits_bits (s : LfsrState) (n : Nat) : (generateBits s n).1 = (List.range n).map (outputBit s) := by
  induction n generalizing s with
  | zero => rfl
  | succ n ih =>
    have later : outputBit s ∘ Nat.succ = outputBit (advance s) := funext (outputBit_succ s)
    rw [generateBits_succ, ih, List.range_succ_eq_map, List.map_cons, List.map_map, later]
    rfl

/-- `generate_sequence` in closed form (40_lfsr.md R132). -/
theorem generateSequence_eq (s : LfsrState) (n : Nat) :
    generateSequence s n = ((List.range n).map fun k => chipOf (outputBit s k), stateAfter s n) := by
  rw [generateSequence, generateBits_bits, generateBits_state, List.map_map]
  rfl

/-- A sequence can be drawn in pieces (40_lfsr.md R132). -/
theorem generateSequence_add (s : LfsrState) (n m : Nat) :
    generateSequence s (n + m) =
      ((generateSequence s n).1 ++ (generateSequence (generateSequence s n).2 m).1,
        (generateSequence (generateSequence s n).2 m).2) := by
  simp only [generateSequence_eq, List.range_add, List.map_append, List.map_map, Function.comp_def, outputBit_add,
    stateAfter_add]

/-! ### The seed test -/

/-- The range test of a seed as numbers (40_lfsr.md R137). -/
theorem seedInRange_iff (a : Operand) : seedInRange a = true ↔ 0 < a.toNat ∧ a.toNat < 2 ^ 23 := by
  have top : a.getLsbD 23 = false ↔ a.toNat < 2 ^ 23 := by
    rw [← BitVec.msb_eq_getLsbD_last a, BitVec.msb_eq_false_iff_two_mul_lt]
    omega
  have nonzero : a ≠ 0 ↔ 0 < a.toNat := by
    rw [ne_eq, ← BitVec.toNat_inj, Nat.pos_iff_ne_zero]
    rfl
  rw [seedInRange, Bool.and_eq_true, bne_iff_ne, Bool.not_eq_true', nonzero, top]

theorem not_seedInRange_iff (a : Operand) : ¬seedInRange a = true ↔ a = 0 ∨ a.getLsbD 23 = true := by
  simp [seedInRange, or_iff_not_imp_left]

/-! ### The operations outside the faulted state -/

section
variable {s : State} (he : s.err = none)
include he

theorem exec_lfsrLdi (a : Operand) :
    exec (.lfsrLdi a) s =
      if seedInRange a then .next (State.respond { s with lfsrI := seedOf a } .done)
      else .next (s.enterError .invalidSeed) := by
  rw [exec, execLfsrLdi, apply_ite s.perform, State.perform_finish he, State.perform_raise he]

theorem exec_lfsrLdq (a : Operand) :
    exec (.lfsrLdq a) s =
      if seedInRange a then .next (State.respond { s with lfsrQ := seedOf a } .done)
      else .next (s.enterError .invalidSeed) := by
  rw [exec, execLfsrLdq, apply_ite s.perform, State.perform_finish he, State.perform_raise he]

theorem exec_lfsrStepi :
    exec .lfsrStepi s =
      if s.lfsrI = 0 then .next (s.enterError .invalidSeed)
      else .next (State.respond { s with lfsrI := advance s.lfsrI, res := bitWord (s.lfsrI.getLsbD 0) }
        (.ok false [bitWord (s.lfsrI.getLsbD 0)])) := by
  rw [exec, execLfsrStepi, apply_ite s.perform, State.finishResult, State.perform_finish he, State.perform_raise he]
  rfl

theorem exec_lfsrStepq :
    exec .lfsrStepq s =
      if s.lfsrQ = 0 then .next (s.enterError .invalidSeed)
      else .next (State.respond { s with lfsrQ := advance s.lfsrQ, res := bitWord (s.lfsrQ.getLsbD 0) }
        (.ok false [bitWord (s.lfsrQ.getLsbD 0)])) := by
  rw [exec, execLfsrStepq, apply_ite s.perform, State.finishResult, State.perform_finish he, State.perform_raise he]
  rfl

theorem exec_lfsrGeni (n : Operand) :
    exec (.lfsrGeni n) s =
      if s.lfsrI = 0 then .next (s.enterError .invalidSeed)
      else .next (State.respond { s with
        ichip := (List.range n.toNat).map fun k => chipOf (outputBit s.lfsrI k)
        lfsrI := stateAfter s.lfsrI n.toNat } .done) := by
  rw [exec, execLfsrGeni, apply_ite s.perform, State.perform_finish he, State.perform_raise he, generateSequence_eq]

theorem exec_lfsrGenq (n : Operand) :
    exec (.lfsrGenq n) s =
      if s.lfsrQ = 0 then .next (s.enterError .invalidSeed)
      else .next (State.respond { s with
        qchip := (List.range n.toNat).map fun k => chipOf (outputBit s.lfsrQ k)
        lfsrQ := stateAfter s.lfsrQ n.toNat } .done) := by
  rw [exec, execLfsrGenq, apply_ite s.perform, State.perform_finish he, State.perform_raise he, generateSequence_eq]

end

/-! ### The obligations -/

/-- Settles O32, from the closed form of `generate_sequence`. -/
theorem sequenceCanBeDrawnInPieces : Obligations.SequenceCanBeDrawnInPieces := fun s n m =>
  ⟨generateSequence_eq s n, generateSequence_add s n m, generateSequence_length s n, rfl⟩

/-- Settles O30, from the equations of the two operations. -/
theorem generateReplacesTheChipBuffer : Obligations.GenerateReplacesTheChipBuffer := by
  refine ⟨fun _ => ⟨rfl, rfl⟩, fun s n he => ?_⟩
  rw [exec_lfsrGeni he, exec_lfsrGenq he]
  exact ⟨fun hI => if_neg hI, fun hQ => if_neg hQ, fun hI => if_pos hI, fun hQ => if_pos hQ⟩

/-- Settles O28: the two conditions on the operand are the seed test and its failure. -/
theorem loadAcceptsExactlyTheValidSeeds : Obligations.LoadAcceptsExactlyTheValidSeeds := by
  refine ⟨fun _ => ⟨rfl, rfl⟩, fun s a he => ?_⟩
  rw [exec_lfsrLdi he, exec_lfsrLdq he]
  refine ⟨fun hpos hlt => ?_, fun hbad => ?_⟩
  · have valid : seedInRange a = true := (seedInRange_iff a).mpr ⟨hpos, hlt⟩
    exact ⟨if_pos valid, if_pos valid⟩
  · have invalid : ¬seedInRange a = true := (not_seedInRange_iff a).mpr hbad
    exact ⟨if_neg invalid, if_neg invalid⟩

/-- Settles O29: the next state and the result are `advance` and the old bit 0, read bit by bit. -/
theorem stepShiftsInTheFeedbackBit : Obligations.StepShiftsInTheFeedbackBit := by
  refine ⟨rfl, rfl, fun s he => ?_⟩
  rw [exec_lfsrStepi he, exec_lfsrStepq he]
  exact ⟨fun hI => ⟨_, _, fun _ => getLsbD_advance_of_lt, getLsbD_advance_top _, bitWord_eq_ite _, if_neg hI⟩,
    fun hQ => ⟨_, _, fun _ => getLsbD_advance_of_lt, getLsbD_advance_top _, bitWord_eq_ite _, if_neg hQ⟩,
    fun hI => if_pos hI, fun hQ => if_pos hQ⟩

end Sys2Proof.Machine
end

section
/-! PROOFS for 41_dsss.md: the payload words that are bits, the two bit loads and `DSSS.SPREAD` outside the faulted state,
and from these O36 and O37. -/

namespace Sys2Proof.Machine

/-! ### Payload words that are bits -/

/-- The bit test of a payload word as numbers (30_encoding.md R103). -/
theorem isBitWord_iff (w : Word) : isBitWord w = true ↔ w.toNat ≤ 1 := decide_eq_true_iff

theorem isBitWord_of_eq {w : Word} (h : w = 0 ∨ w = 1) : isBitWord w = true := by
  obtain rfl | rfl := h <;> rfl

theorem bitOfWord_of_eq {w : Word} (h : w = 0 ∨ w = 1) : bitOfWord w = (w == 1) := by
  obtain rfl | rfl := h <;> rfl

theorem all_isBitWord {payload : List Word} (h : ∀ w ∈ payload, w = 0 ∨ w = 1) : payload.all isBitWord = true :=
  List.all_eq_true.mpr fun w hw => isBitWord_of_eq (h w hw)

theorem not_all_isBitWord {payload : List Word} (h : ∃ w ∈ payload, 1 < w.toNat) :
    ¬payload.all isBitWord = true := by
  obtain ⟨w, hw, hbig⟩ := h
  exact fun hall => Nat.not_le.mpr hbig ((isBitWord_iff w).mp (List.all_eq_true.mp hall w hw))

theorem map_bitOfWord {payload : List Word} (h : ∀ w ∈ payload, w = 0 ∨ w = 1) :
    payload.map bitOfWord = payload.map (fun w => w == 1) :=
  List.map_congr_left fun w hw => bitOfWord_of_eq (h w hw)

/-! ### The capacity -/

/-- The payload of a command, at most `2^24 - 1` words, fits every buffer (10_state.md R39). -/
theorem overCapacity_of_payload {n : Nat} (h : n < 2 ^ 24) : ¬overCapacity n = true := by
  rw [overCapacity_eq_true]
  omega

/-- The I channel, 256 chips for each even position, reaches the capacity at `2^25 - 1` bits (41_dsss.md R156). -/
theorem overCapacity_spread_iff (n : Nat) :
    overCapacity (256 * ((n + 1) / 2)) = true ↔ 2 ^ 25 - 1 ≤ n := by
  rw [overCapacity_eq_true]
  omega

/-! ### The operations outside the faulted state -/

section
variable {s : State} (he : s.err = none)
include he

/-- What the two bit loads share: for the payload of a command the bit test alone decides (41_dsss.md R155; 45_frame.md
R212). -/
theorem State.perform_bitLoad {payload : List Word} (hl : payload.length < 2 ^ 24) (t : State) :
    s.perform (if !payload.all isBitWord then .raise .invalidInput
      else if overCapacity payload.length then .raise .invalidInput else .finish t .done) =
      if payload.all isBitWord then .next (t.respond .done) else .next (s.enterError .invalidInput) := by
  rw [if_neg (overCapacity_of_payload hl), apply_ite s.perform, State.perform_raise he, State.perform_finish he]
  cases payload.all isBitWord <;> rfl

theorem exec_fbLd {payload : List Word} (hl : payload.length < 2 ^ 24) :
    exec (.fbLd payload) s =
      if payload.all isBitWord then .next (State.respond { s with fbits := payload.map bitOfWord } .done)
      else .next (s.enterError .invalidInput) := State.perform_bitLoad he hl _

theorem exec_msgLdbits {payload : List Word} (hl : payload.length < 2 ^ 24) :
    exec (.msgLdbits payload) s =
      if payload.all isBitWord then .next (State.respond { s with mbits := payload.map bitOfWord } .done)
      else .next (s.enterError .invalidInput) := State.perform_bitLoad he hl _

/-- The tests of `DSSS.SPREAD` in their order, the capacity as a number of bits (41_dsss.md R156). -/
theorem exec_dsssSpread :
    exec .dsssSpread s =
      if s.lfsrI = 0 ∨ s.lfsrQ = 0 then .next (s.enterError .invalidSeed)
      else if 2 ^ 25 - 1 ≤ s.fbits.length then .next (s.enterError .invalidInput)
      else .next (State.respond { s with
        ichip := (spread s.fbits 256 s.lfsrI s.lfsrQ).iChips
        qchip := (spread s.fbits 256 s.lfsrI s.lfsrQ).qChips
        lfsrI := (spread s.fbits 256 s.lfsrI s.lfsrQ).stateI
        lfsrQ := (spread s.fbits 256 s.lfsrI s.lfsrQ).stateQ } .done) := by
  rw [exec, execDsssSpread, apply_ite s.perform, apply_ite s.perform, State.perform_raise he, State.perform_raise he,
    State.perform_finish he]
  simp only [Config.chipsPerBit, overCapacity_spread_iff]

end

/-! ### The obligations -/

/-- Settles O36: the bit test passes on words 0 and 1, where the stored bit is the word, and fails on any other word. -/
theorem bitLoadsReplaceTheirBuffer : Obligations.BitLoadsReplaceTheirBuffer := by
  intro s payload he hl
  rw [exec_fbLd he hl, exec_msgLdbits he hl]
  refine ⟨rfl, rfl, fun bits => ?_, fun bad => ?_⟩
  · rw [if_pos (all_isBitWord bits), if_pos (all_isBitWord bits), map_bitOfWord bits]
    exact ⟨rfl, rfl⟩
  · exact ⟨if_neg (not_all_isBitWord bad), if_neg (not_all_isBitWord bad)⟩

/-- Settles O37, from the equation of `DSSS.SPREAD`. -/
theorem spreadWritesBothChannels : Obligations.SpreadWritesBothChannels := by
  refine ⟨rfl, fun s he => ?_⟩
  rw [exec_dsssSpread he]
  refine ⟨fun unloaded => if_pos unloaded, fun hI hQ => ?_⟩
  rw [if_neg (not_or_intro hI hQ)]
  exact ⟨fun long => if_pos long, fun fits => if_neg (Nat.not_le.mpr fits)⟩

end Sys2Proof.Machine
end

section
/-! PROOFS for 43_oqpsk.md: the samples of the delayed Q stream and of two combined streams, and from these O47. -/

namespace Sys2Proof.Machine

/-! ### The delayed stream and the combined streams, sample by sample -/

/-- The injected samples are 0.0 (43_oqpsk.md R187). -/
theorem delayQ_getElem?_of_lt {spc n : Nat} (h : n < offsetSamples spc) (q : List F32) :
    (delayQ spc q)[n]? = some zero32 := by
  rw [delayQ, List.getElem?_append_left (by simpa using h), List.getElem?_replicate_of_lt h]

/-- After the offset the stream itself follows (43_oqpsk.md R187). -/
theorem delayQ_getElem?_of_le {spc n : Nat} (h : offsetSamples spc ≤ n) (q : List F32) :
    (delayQ spc q)[n]? = q[n - offsetSamples spc]? := by
  rw [delayQ, List.getElem?_append_right (by simpa using h), List.length_replicate]

theorem delayQ_getElem?_eq_some_iff {spc n : Nat} {q : List F32} {v : F32} :
    (delayQ spc q)[n]? = some v ↔
      (n < offsetSamples spc ∧ v = zero32) ∨ (offsetSamples spc ≤ n ∧ q[n - offsetSamples spc]? = some v) := by
  rcases Nat.lt_or_ge n (offsetSamples spc) with injected | delayed
  · simp [delayQ_getElem?_of_lt injected, injected, injected.not_ge, eq_comm]
  · simp [delayQ_getElem?_of_le delayed, delayed, delayed.not_gt]

/-- A combined sample is a pair of samples, one of each stream at the same index (43_oqpsk.md R189). -/
theorem combine_getElem?_eq_some_iff {i q : List F32} {n : Nat} {z : Sample} :
    (combine i q)[n]? = some z ↔ i[n]? = some z.re ∧ q[n]? = some z.im := by
  rw [combine, List.getElem?_zipWith_eq_some]
  constructor
  · rintro ⟨re, im, hre, him, rfl⟩
    exact ⟨hre, him⟩
  · rintro ⟨hre, him⟩
    exact ⟨z.re, z.im, hre, him, rfl⟩

/-! ### The obligations -/

/-- Settles O47: a combined sample takes one sample of each stream, and the delayed stream holds 0.0 before index `D` and
the Q stream from there on. -/
theorem combiningDelaysQByHalfAChip : Obligations.CombiningDelaysQByHalfAChip := by
  intro iSig qSig spc n z
  constructor
  · rw [combine_length, delayQ_length, offsetSamples]
  · rw [combine_getElem?_eq_some_iff, delayQ_getElem?_eq_some_iff, offsetSamples, zero32]

end Sys2Proof.Machine
end

section
/-! PROOFS for 44_biphase.md: the samples of one bit with the values of the two phases, `BPL.BIT` outside the faulted
state, and from these O51. -/

namespace Sys2Proof.Machine

/-! ### The samples of one bit -/

/-- A 1 is eight samples at +1.1 rad, then eight at -1.1 rad (44_biphase.md R201, R202). -/
theorem modulateBit_true :
    modulateBit true =
      List.replicate 8 ⟨0x3EE83DC0, 0x3F64262A⟩ ++ List.replicate 8 ⟨0x3EE83DC0, 0xBF64262A⟩ := rfl

/-- A 0 has the two phases in the other order (44_biphase.md R201, R202). -/
theorem modulateBit_false :
    modulateBit false =
      List.replicate 8 ⟨0x3EE83DC0, 0xBF64262A⟩ ++ List.replicate 8 ⟨0x3EE83DC0, 0x3F64262A⟩ := rfl

/-! ### The operation outside the faulted state -/

section
variable {s : State} (he : s.err = none)
include he

/-- `BPL.BIT` tests its operand, then makes the samples of the bit the output (44_biphase.md R205). -/
theorem exec_bplBit (b : Operand) :
    exec (.bplBit b) s =
      if 1 < b.toNat then .next (s.enterError .invalidInput)
      else .next ((s.setOutput (modulateBit (b == 1))).respond .done) := by
  rw [exec, execBplBit, apply_ite s.perform, State.perform_raise he, State.perform_finish he]

/-- On the operand that is a bit the samples are that bit's (44_biphase.md R205). -/
theorem exec_bplBit_of_bit (bit : Bool) :
    exec (.bplBit (BitVec.ofNat 24 bit.toNat)) s =
      .next ((s.setOutput (modulateBit bit)).respond .done) := by
  rw [exec_bplBit he]
  cases bit <;> rfl

end

/-! ### The obligation -/

/-- Settles O51: the operand 1 or 0 is a bit, whose samples are known, and the operand test fails on any larger one. -/
theorem biphaseBitWritesSixteenSamples : Obligations.BiphaseBitWritesSixteenSamples := by
  refine ⟨fun _ => rfl, fun s he => ⟨?_, ?_, fun b large => ?_⟩⟩
  · rw [← modulateBit_true]
    exact exec_bplBit_of_bit he true
  · rw [← modulateBit_false]
    exact exec_bplBit_of_bit he false
  · rw [exec_bplBit he, if_pos large]

end Sys2Proof.Machine
end

section
/-! PROOFS for 45_frame.md: the message bits of a payload of bytes, the samples of a cyclic chunk, `MSG.LDB`, `PULL` and
`REWIND` outside the faulted state, and from these O52, O57 and O58. -/

namespace Sys2Proof.Machine

/-! ### Payload words that are bytes -/

/-- The byte test of a payload word as numbers (30_encoding.md R103). -/
theorem isByteWord_iff (w : Word) : isByteWord w = true ↔ w.toNat ≤ 0xFF := decide_eq_true_iff

theorem all_isByteWord_iff (payload : List Word) :
    payload.all isByteWord = true ↔ ∀ w ∈ payload, w.toNat ≤ 0xFF := by
  simp only [List.all_eq_true, isByteWord_iff]

/-! ### The message bits of a payload of bytes -/

@[simp] theorem bitsOfByte_length (w : Word) : (bitsOfByte w).length = 8 := rfl

/-- Bit `i` of a byte in the order of transmission is its bit `7 - i` (20_memory.md R63). -/
theorem bitsOfByte_getElem? (w : Word) {i : Nat} (hi : i < 8) : (bitsOfByte w)[i]? = some (w.getLsbD (7 - i)) := by
  have bits : bitsOfByte w = (List.range 8).map fun i => w.getLsbD (7 - i) := rfl
  rw [bits, List.getElem?_map, List.getElem?_range hi, Option.map_some]

theorem bitsOfBytes_cons (w : Word) (payload : List Word) :
    bitsOfBytes (w :: payload) = bitsOfByte w ++ bitsOfBytes payload := List.flatMap_cons

theorem bitsOfBytes_length (payload : List Word) : (bitsOfBytes payload).length = 8 * payload.length := by
  induction payload with
  | nil => rfl
  | cons w payload ih =>
    rw [bitsOfBytes_cons, List.length_append, bitsOfByte_length, ih, List.length_cons]
    omega

/-- The bits of byte `k` stand at `8k` to `8k + 7` (45_frame.md R211). -/
theorem bitsOfBytes_getElem? {payload : List Word} {k i : Nat} {w : Word} (hk : payload[k]? = some w) (hi : i < 8) :
    (bitsOfBytes payload)[8 * k + i]? = some (w.getLsbD (7 - i)) := by
  induction payload generalizing k with
  | nil => simp at hk
  | cons v payload ih =>
    rw [bitsOfBytes_cons]
    cases k with
    | zero =>
      obtain rfl : v = w := by simpa using hk
      rw [Nat.mul_zero, Nat.zero_add, List.getElem?_append_left (by simpa using hi), bitsOfByte_getElem? v hi]
    | succ k =>
      have later : 8 * (k + 1) + i = (bitsOfByte v).length + (8 * k + i) := by
        rw [bitsOfByte_length]
        omega
      rw [later, List.getElem?_append_right (Nat.le_add_right _ _), Nat.add_sub_cancel_left]
      exact ih hk

/-- The bytes of a command, at most `2^24 - 1` words, fit the message buffer (10_state.md R39). -/
theorem overCapacity_of_bytePayload {n : Nat} (h : n < 2 ^ 24) : ¬overCapacity (8 * n) = true := by
  rw [overCapacity_eq_true]
  omega

/-! ### The samples of a cyclic chunk -/

@[simp] theorem cyclicChunk_length (out : List Sample) (start n : Nat) : (cyclicChunk out start n).length = n := by
  simp [cyclicChunk]

/-- In an output that is not empty every wrapped index names a sample, so the chunk never falls back to the zero sample
(45_frame.md R226). -/
theorem cyclicChunk_getElem? {out : List Sample} (h : out ≠ []) (start : Nat) {n j : Nat} (hj : j < n) :
    (cyclicChunk out start n)[j]? = out[(start + j) % out.length]? := by
  have inside : (start + j) % out.length < out.length := Nat.mod_lt _ (List.length_pos_iff.mpr h)
  rw [cyclicChunk, List.getElem?_map, List.getElem?_range hj, Option.map_some, List.getElem?_eq_getElem inside,
    Option.getD_some]

/-! ### The operations outside the faulted state -/

section
variable {s : State} (he : s.err = none)
include he

/-- For the payload of a command the byte test alone decides (45_frame.md R211). -/
theorem exec_msgLdb {payload : List Word} (hl : payload.length < 2 ^ 24) :
    exec (.msgLdb payload) s =
      if payload.all isByteWord then .next (State.respond { s with mbits := bitsOfBytes payload } .done)
      else .next (s.enterError .invalidInput) := by
  rw [exec, execMsgLdb, if_neg (overCapacity_of_bytePayload hl), apply_ite s.perform, State.perform_raise he,
    State.perform_finish he]
  cases payload.all isByteWord <;> rfl

theorem exec_rewind :
    exec .rewind s =
      if s.ready = false then .next (s.enterError .invalidInput)
      else .next (State.respond { s with rdidx := 0, eos := false } .done) := by
  rw [exec, execRewind, apply_ite s.perform, State.perform_raise he, State.perform_finish he]

/-- With nothing assembled there is nothing to pull (45_frame.md R225). -/
theorem exec_pull_of_not_ready (hr : s.ready = false) (n : Operand) :
    exec (.pull n) s = .next (s.enterError .invalidInput) := by
  rw [exec, execPull, if_pos hr, State.perform_raise he]

/-- `PULL` of an assembled output in cyclic playback (45_frame.md R226). -/
theorem exec_pull_cyclic (hr : s.ready = true) (hc : s.cyclic = true) (n : Operand) :
    exec (.pull n) s = .next (State.respond
      { s with rdidx := BitVec.ofNat 32 ((s.rdidx.toNat + n.toNat) % s.obuf.length) }
      (.ok false ((cyclicChunk s.obuf s.rdidx.toNat n.toNat).flatMap sampleWords))) := by
  rw [exec, execPull, if_neg (ne_false_of_eq_true hr), if_pos hc, pullCyclic, State.perform_finish he]

end

/-! ### The obligations -/

/-- Settles O52: the message is the bits of the payload's bytes, known by length and index, and the byte test fails on
any larger word. -/
theorem byteLoadIsMostSignificantBitFirst : Obligations.ByteLoadIsMostSignificantBitFirst := by
  intro s payload he hl
  rw [exec_msgLdb he hl]
  refine ⟨rfl, fun bytes => ?_, fun ⟨w, hw, large⟩ => ?_⟩
  · exact ⟨bitsOfBytes payload, bitsOfBytes_length payload, fun _ _ _ => bitsOfBytes_getElem?,
      if_pos ((all_isByteWord_iff payload).mpr bytes)⟩
  · exact if_neg fun bytes => Nat.not_le.mpr large ((all_isByteWord_iff payload).mp bytes w hw)

/-- Settles O58: the chunk is the cyclic one, and the operation leaves `EOS` and answers without the signal. -/
theorem cyclicPullWrapsAround : Obligations.CyclicPullWrapsAround := by
  refine ⟨fun _ => rfl, fun s n he hr hc nonempty _ => ?_⟩
  exact ⟨cyclicChunk s.obuf s.rdidx.toNat n.toNat, cyclicChunk_length .., fun _ => cyclicChunk_getElem? nonempty _,
    exec_pull_cyclic he hr hc n⟩

/-- Settles O57: both operations test `READY` first. -/
theorem rewindRestartsPlayback : Obligations.RewindRestartsPlayback := by
  refine ⟨rfl, fun s he => ⟨fun ready => ?_, fun idle => ?_, fun idle n => exec_pull_of_not_ready he idle n⟩⟩
  · rw [exec_rewind he, if_neg (ne_false_of_eq_true ready)]
    rfl
  · rw [exec_rewind he, if_pos idle]

end Sys2Proof.Machine
end

section
/-! PROOFS for 46_system.md: the range tests of a CSR write as numbers, the registers a CSR read finds, the packed vector
bit by bit, the four operations that use them, and from these O21, O23, O26 and O27. -/

namespace Sys2Proof.Machine

/-! ### The tests of a CSR write -/

/-- The bits from `k` up are clear exactly when the word is below `2^k`. -/
theorem ushiftRight_beq_zero_iff (v : Word) (k : Nat) : (v >>> k == 0) = true ↔ v.toNat < 2 ^ k := by
  rw [beq_iff_eq, ← BitVec.toNat_inj, BitVec.toNat_ushiftRight, Nat.shiftRight_eq_div_pow]
  exact Nat.div_eq_zero_iff_lt (Nat.two_pow_pos k)

/-- `CFG` has 3 bits (10_state.md R27). -/
theorem csrReservedClear_cfg (v : Word) : csrReservedClear 0 v = true ↔ v.toNat < 8 :=
  ushiftRight_beq_zero_iff v 3

/-- `SPC` and `SPAN` have 16 bits (10_state.md R28, R29). -/
theorem csrReservedClear_spc_span {n : Nat} (hn : n = 1 ∨ n = 2) (v : Word) :
    csrReservedClear n v = true ↔ v.toNat < 65536 := by
  obtain rfl | rfl := hn <;> exact ushiftRight_beq_zero_iff v 16

/-- A seed register is written after its own test, not after reserved bits (10_state.md R30). -/
theorem csrReservedClear_of_three_le {n : Nat} (hn : 3 ≤ n) (v : Word) : csrReservedClear n v = true := by
  match n, hn with
  | _ + 3, _ => rfl

/-- The range test of a word for a seed register as numbers (10_state.md R30; 40_lfsr.md R137). -/
theorem seedWordInRange_iff (v : Word) : seedWordInRange v = true ↔ 0 < v.toNat ∧ v.toNat < 2 ^ 23 := by
  have nonzero : v ≠ 0 ↔ 0 < v.toNat := by
    rw [ne_eq, ← BitVec.toNat_inj, Nat.pos_iff_ne_zero]
    rfl
  rw [seedWordInRange, Bool.and_eq_true, bne_iff_ne, ushiftRight_beq_zero_iff, nonzero]

/-! ### The registers a CSR read finds -/

/-- CSR numbers run from 0 to 16 (10_state.md R27 to R34). -/
theorem getElem?_csrRead_iff {s : State} {r : Nat} {v : Word} :
    ((List.range 17).map fun n => csrRead n s)[r]? = some v ↔ r ≤ 16 ∧ csrRead r s = v := by
  simp [List.getElem?_eq_some_iff, Nat.lt_succ_iff]

/-! ### The packed vector -/

theorem pack64_concat (bits : List Bool) (b : Bool) :
    pack64 (bits ++ [b]) = (pack64 bits <<< 1) ||| (BitVec.ofBool b).setWidth 64 :=
  List.foldl_concat _ _ _ _

/-- The last bit packed is bit 0, and each bit before it stands one place higher. -/
theorem getLsbD_pack64 (bits : List Bool) {j : Nat} (hj : j < 64) :
    (pack64 bits).getLsbD j = bits.reverse.getD j false := by
  induction bits using List.reverseRecOn generalizing j with
  | nil => simp [pack64]
  | append_singleton bits b ih =>
    rw [pack64_concat, List.reverse_concat, BitVec.getLsbD_or, BitVec.getLsbD_shiftLeft, BitVec.getLsbD_setWidth,
      BitVec.getLsbD_ofBool]
    cases j with
    | zero => simp
    | succ j => simp [hj, ih (Nat.lt_of_succ_lt hj)]

/-- Output bit `k` stands in bit `63 - k` of the packed vector (46_system.md R250). -/
theorem getLsbD_first64 (seed : LfsrState) {k : Nat} (hk : k < 64) :
    (first64 seed).getLsbD (63 - k) = outputBit seed k := by
  have place : 64 - 1 - (63 - k) = k := by omega
  rw [first64, getLsbD_pack64 _ (by omega), generateBits_bits, List.getD_eq_getElem?_getD,
    List.getElem?_reverse (by simp; omega), List.length_map, List.length_range, place, List.getElem?_map,
    List.getElem?_range hk]
  rfl

/-- A reference is the packed vector of a seed exactly when it agrees with its first 64 output bits. -/
theorem first64_eq_iff (seed : LfsrState) (ref : BitVec 64) :
    first64 seed = ref ↔ ∀ k, k < 64 → ref.getLsbD (63 - k) = outputBit seed k := by
  refine ⟨fun h k hk => h ▸ getLsbD_first64 seed hk, fun h => BitVec.eq_of_getLsbD_eq fun i hi => ?_⟩
  have place : 63 - (63 - i) = i := by omega
  rw [← place, h _ (by omega), getLsbD_first64 seed (by omega)]

/-- The register shifts out its own bits first, bit 0 to bit 22 (40_lfsr.md R131). -/
theorem outputBit_eq_getLsbD (s : LfsrState) {k : Nat} (hk : k < 23) : outputBit s k = s.getLsbD k := by
  induction k generalizing s with
  | zero => rfl
  | succ k ih => rw [outputBit_succ, ih _ (Nat.lt_of_succ_lt hk), getLsbD_advance_of_lt (Nat.succ_lt_succ_iff.mp hk)]

/-- The first 23 of the 64 bits are the seed itself, so no two seeds share a vector (46_system.md R256). -/
theorem first64_injective : Function.Injective first64 := by
  intro a b h
  refine BitVec.eq_of_getLsbD_eq fun i hi => ?_
  have agree := (first64_eq_iff a (first64 b)).mp h i (by omega)
  rw [getLsbD_first64 b (by omega), outputBit_eq_getLsbD b hi, outputBit_eq_getLsbD a hi] at agree
  exact agree.symm

/-- The normal-mode I seed gives the reference vector (46_system.md R255). -/
theorem first64_seedINormal : first64 Config.seedINormal = Config.ref64 := by decide +kernel

/-- An operand that passes the seed test is its seed, so distinct ones are distinct seeds. -/
theorem seedOf_injOn {a b : Operand} (ha : seedInRange a = true) (hb : seedInRange b = true)
    (h : seedOf a = seedOf b) : a = b := by
  obtain ⟨-, ha⟩ := (seedInRange_iff a).mp ha
  obtain ⟨-, hb⟩ := (seedInRange_iff b).mp hb
  rwa [seedOf, seedOf, ← BitVec.toNat_inj, BitVec.toNat_setWidth, BitVec.toNat_setWidth, Nat.mod_eq_of_lt ha,
    Nat.mod_eq_of_lt hb, BitVec.toNat_inj] at h

/-! ### `CSR.RD` of a number that names no register -/

theorem exec_csrRd_reserved {r : Operand} (hr : 17 ≤ r.toNat) (s : State) :
    exec (.csrRd r) s = s.performAlways (.raise .invalidInput) := by
  rw [exec, execCsrRd, if_pos (Nat.lt_of_succ_le hr)]

/-! ### The operations outside the faulted state -/

section
variable {s : State} (he : s.err = none)
include he

/-- While an output is assembled no register can be written (46_system.md R252). -/
theorem exec_csrWr_of_ready (hready : s.ready = true) (r : Operand) (v : Word) :
    exec (.csrWr r v) s = .next (s.enterError .invalidInput) := by
  rw [exec, execCsrWr, if_pos hready, ite_self, ite_self, State.perform_raise he]

/-- A write to `CFG`, `SPC` or `SPAN` is decided by the reserved bits (46_system.md R252). -/
theorem exec_csrWr_config (hidle : s.ready = false) {r : Operand} (hr : r.toNat < 3) (v : Word) :
    exec (.csrWr r v) s =
      if csrReservedClear r.toNat v then .next ((csrWrite r.toNat v s).respond .done)
      else .next (s.enterError .invalidInput) := by
  have notSeed : isSeedCsr r.toNat = false := by
    rw [isSeedCsr, decide_eq_false (Nat.not_le.mpr hr), Bool.false_and]
  rw [exec, execCsrWr, if_neg (by omega), if_neg (by omega), if_neg (ne_true_of_eq_false hidle), notSeed,
    Bool.false_and, if_neg Bool.false_ne_true, apply_ite s.perform, State.perform_raise he, State.perform_finish he]
  cases csrReservedClear r.toNat v <;> rfl

/-- A write to a seed register is decided by the seed test (46_system.md R252). -/
theorem exec_csrWr_seed (hidle : s.ready = false) {r : Operand} (hlow : 3 ≤ r.toNat) (hhigh : r.toNat ≤ 6) (v : Word) :
    exec (.csrWr r v) s =
      if seedWordInRange v then .next ((csrWrite r.toNat v s).respond .done)
      else .next (s.enterError .invalidSeed) := by
  have clear : csrReservedClear r.toNat v = true := csrReservedClear_of_three_le hlow v
  have isSeed : isSeedCsr r.toNat = true := by
    rw [isSeedCsr, decide_eq_true hlow, decide_eq_true hhigh, Bool.and_self]
  rw [exec, execCsrWr, if_neg (by omega), if_neg (by omega), if_neg (ne_true_of_eq_false hidle), clear, isSeed,
    Bool.true_and, if_neg (by decide), apply_ite s.perform, State.perform_raise he, State.perform_finish he]
  cases seedWordInRange v <;> rfl

theorem exec_selfchk : exec .selfchk s = .next (State.respond { s with res := 1 } (.ok false [1])) := by
  rw [exec, execSelfchk, if_neg (not_not_intro first64_seedINormal), State.finishResult, State.perform_finish he]

theorem exec_verify (a : Operand) (hi lo : Word) :
    exec (.verify a hi lo) s =
      if seedInRange a then
        if first64 (seedOf a) = hi ++ lo then .next (State.respond { s with res := 1 } (.ok false [1]))
        else .next (s.enterError .verificationFailure)
      else .next (s.enterError .invalidSeed) := by
  rw [exec, execVerify, ite_not, apply_ite s.perform, apply_ite s.perform, State.finishResult, State.perform_raise he,
    State.perform_raise he, State.perform_finish he]
  cases seedInRange a <;> rfl

/-- `VERIFY` completes only for a valid seed whose packed vector is the reference. -/
theorem exec_verify_completes {a : Operand} {hi lo : Word} {t : State} (h : exec (.verify a hi lo) s = .next t)
    (ht : t.err = none) : seedInRange a = true ∧ first64 (seedOf a) = hi ++ lo := by
  rw [exec_verify he] at h
  split at h
  next valid =>
    split at h
    next same => exact ⟨valid, same⟩
    next => cases h; cases ht
  next => cases h; cases ht

end

/-! ### The obligations -/

/-- Settles O27: the packed vector is the 64 output bits, and the first 23 of them are the seed. -/
theorem verifyComparesTheFirst64Bits : Obligations.VerifyComparesTheFirst64Bits := by
  refine ⟨fun _ _ _ => rfl, fun s a hi lo he => ⟨fun bad => ?_, fun hpos hlt => ?_, fun b t u ha hta hb hub => ?_⟩⟩
  · rw [exec_verify he, if_neg]
    rw [seedInRange_iff]
    obtain rfl | big := bad
    · exact fun ⟨hpos, _⟩ => Nat.lt_irrefl 0 hpos
    · exact fun ⟨_, hlt⟩ => Nat.not_lt.mpr big hlt
  · rw [exec_verify he, if_pos ((seedInRange_iff a).mpr ⟨hpos, hlt⟩)]
    refine ⟨fun agree => if_pos ((first64_eq_iff _ _).mpr agree), fun ⟨k, hk, differ⟩ => if_neg fun same => ?_⟩
    exact differ ((first64_eq_iff _ _).mp same k hk)
  · obtain ⟨validA, sameA⟩ := exec_verify_completes he ha hta
    obtain ⟨validB, sameB⟩ := exec_verify_completes he hb hub
    exact seedOf_injOn validA validB (first64_injective (sameA.trans sameB.symm))

/-- Settles O21: the read-only numbers and `READY` are tested first, then the reserved bits of `CFG`, `SPC` and `SPAN` or
the seed test of the four seed registers. -/
theorem csrWriteSetsTheRegisterOrRefuses : Obligations.CsrWriteSetsTheRegisterOrRefuses := by
  refine ⟨fun _ _ => rfl, fun s r v he => ⟨fun blocked => ?_, fun idle => ?_⟩⟩
  · obtain readOnly | ready := blocked
    · exact exec_csrWr_not_writable readOnly he v
    · exact exec_csrWr_of_ready he ready r v
  refine ⟨fun hr large => ?_, fun hr large => ?_, fun hlow hhigh bad => ?_, fun small => ?_, fun small => ?_,
    fun small => ?_, fun hpos hlt => ?_⟩
  · subst hr
    rw [exec_csrWr_config he idle (by decide), if_neg]
    exact fun clear => Nat.not_lt.mpr large ((csrReservedClear_cfg v).mp clear)
  · have number : r.toNat = 1 ∨ r.toNat = 2 := hr.imp (congrArg _) (congrArg _)
    rw [exec_csrWr_config he idle (by omega), if_neg]
    exact fun clear => Nat.not_lt.mpr large ((csrReservedClear_spc_span number v).mp clear)
  · rw [exec_csrWr_seed he idle hlow hhigh, if_neg]
    rw [seedWordInRange_iff]
    obtain rfl | big := bad
    · exact fun ⟨hpos, _⟩ => Nat.lt_irrefl 0 hpos
    · exact fun ⟨_, hlt⟩ => Nat.not_lt.mpr big hlt
  · rw [exec_csrWr_config he idle (by decide)]
    exact if_pos ((csrReservedClear_cfg v).mpr small)
  · rw [exec_csrWr_config he idle (by decide)]
    exact if_pos ((csrReservedClear_spc_span (.inl rfl) v).mpr small)
  · rw [exec_csrWr_config he idle (by decide)]
    exact if_pos ((csrReservedClear_spc_span (.inr rfl) v).mpr small)
  · have valid : seedWordInRange v = true := (seedWordInRange_iff v).mpr ⟨hpos, hlt⟩
    have written {n : Operand} (hlow : 3 ≤ n.toNat) (hhigh : n.toNat ≤ 6) :
        exec (.csrWr n v) s = .next ((csrWrite n.toNat v s).respond .done) := by
      rw [exec_csrWr_seed he idle hlow hhigh, if_pos valid]
    exact ⟨written (by decide) (by decide), written (by decide) (by decide), written (by decide) (by decide),
      written (by decide) (by decide)⟩

/-- Settles O23: the statement's table lists what `CSR.RD` reads at 0 to 16, and any other number raises
`InvalidInput`. -/
theorem csrReadReturnsTheRegister : Obligations.CsrReadReturnsTheRegister := by
  refine ⟨fun _ => rfl, fun s r => ⟨fun v row => ?_, fun large he => ?_, fun large faulted => ?_⟩⟩
  · obtain ⟨hr, rfl⟩ := getElem?_csrRead_iff.mp row
    exact exec_csrRd hr s
  · rw [exec_csrRd_reserved large, State.performAlways_raise he]
  · obtain ⟨k, hk⟩ := Option.ne_none_iff_exists'.mp faulted
    rw [exec_csrRd_reserved large, State.performAlways_raise_of_err hk]
    rfl

/-- Settles O26: the constant seed gives the reference vector, so the comparison never fails. -/
theorem selfCheckAlwaysPasses : Obligations.SelfCheckAlwaysPasses :=
  ⟨rfl, (first64_eq_iff _ _).mp first64_seedINormal, fun _ he => exec_selfchk he⟩

end Sys2Proof.Machine
end

section
/-! PROOFS for 60_exceptions.md: which operations can end with `ERR` set, and from this O14. -/

namespace Sys2Proof.Machine

/-! ### No operation that ends sets `ERR` -/

/-- The state an operation ends in, if it does not raise, is not faulted. -/
def Effect.EndsUnfaulted : Effect → Prop
  | .raise _ => True
  | .finish t _ => t.err = none

@[simp] theorem Effect.endsUnfaulted_raise (k : ErrKind) : (Effect.raise k).EndsUnfaulted := trivial

@[simp] theorem Effect.endsUnfaulted_finish (t : State) (r : Response) :
    (Effect.finish t r).EndsUnfaulted ↔ t.err = none := .rfl

@[simp] theorem Effect.endsUnfaulted_finishResult (s : State) (v : Word) :
    (s.finishResult v).EndsUnfaulted ↔ s.err = none := .rfl

/-- An operation that tests before it acts ends unfaulted if both branches do. -/
@[simp] theorem Effect.endsUnfaulted_ite (c : Prop) [Decidable c] (e f : Effect) :
    (if c then e else f).EndsUnfaulted ↔ (c → e.EndsUnfaulted) ∧ (¬c → f.EndsUnfaulted) := by
  split <;> simp_all

@[simp] theorem csrWrite_err (r : Nat) (v : Word) (s : State) : (csrWrite r v s).err = s.err := by
  unfold csrWrite
  split <;> rfl

/-! ### Running an operation outside the faulted state -/

/-- Outside the faulted state an operation runs the same way whether or not a faulted CORE would accept it. -/
theorem State.performAlways_eq_perform {s : State} (he : s.err = none) (e : Effect) :
    s.performAlways e = s.perform e := by
  cases e with
  | raise k => rw [State.performAlways_raise he, State.perform_raise he]
  | finish t r => rw [State.performAlways_finish, State.perform_finish he]

/-- An operation that ends unfaulted leaves `ERR` set only by entering an error (60_exceptions.md R275). -/
theorem State.perform_eq_enterError {s t : State} {e : Effect} {k : ErrKind} (he : s.err = none)
    (ends : e.EndsUnfaulted) (h : s.perform e = .next t) (hk : t.err = some k) : t = s.enterError k := by
  obtain ⟨j, hj, -⟩ | ⟨-, j, -, rfl⟩ | ⟨-, u, r, rfl, rfl⟩ := State.perform_cases h
  · exact nomatch he.symm.trans hj
  · rw [State.enterError_err, Option.some.injEq] at hk
    rw [hk]
  · exact nomatch ends.symm.trans hk

section
variable {s : State} (he : s.err = none)
include he

theorem asm1G_endsUnfaulted : (asm1G s).EndsUnfaulted := by simp [asm1G, he]

theorem asm2G_endsUnfaulted : (asm2G s).EndsUnfaulted := by simp [asm2G, he]

/-- Outside the faulted state every operation is an effect that ends unfaulted, run by `perform`: no operation writes
`ERR` itself. -/
theorem exec_eq_perform (i : Instr) : ∃ e : Effect, e.EndsUnfaulted ∧ exec i s = s.perform e := by
  cases i
  -- `RESET` and `SELFCHK` test no operand or state: unfolded by name, so that unification does not evaluate them.
  case reset =>
    rw [exec, execReset]
    exact ⟨.finish s.restart .done, s.restart_err, State.performAlways_eq_perform he _⟩
  case selfchk =>
    rw [exec, execSelfchk]
    exact ⟨_, by simp [he], rfl⟩
  case csrRd | bufRd => exact ⟨_, by simp [he], State.performAlways_eq_perform he _⟩
  -- The generation selects the path.
  case asm =>
    refine ⟨_, ?_, rfl⟩
    split
    · exact asm1G_endsUnfaulted he
    · exact asm2G_endsUnfaulted he
  case pull => exact ⟨_, by simp [pullCyclic, pullFinite, he], rfl⟩
  all_goals exact ⟨_, by simp [he], rfl⟩

/-- An operation that raises an error ends in error entry, whatever it tested or computed before. -/
theorem exec_eq_enterError {i : Instr} {t : State} {k : ErrKind} (h : exec i s = .next t) (hk : t.err = some k) :
    t = s.enterError k := by
  obtain ⟨e, ends, ran⟩ := exec_eq_perform he i
  exact State.perform_eq_enterError he ends (ran.symm.trans h) hk

end

/-! ### The obligation -/

/-- Settles O14: the error is entered from the state the operation began in, and a step runs the operation on the port
without its words. -/
theorem failedOperationWritesOnlyTheErrorState : Obligations.FailedOperationWritesOnlyTheErrorState := by
  intro i s t k he h hk
  have entered : t = s.enterError k := exec_eq_enterError he h hk
  refine ⟨entered, entered.symm, fun u rest hs hr hd => ?_⟩
  rw [step_of_command hr hd, ← hs]
  exact h

end Sys2Proof.Machine
end

section
/-! PROOFS for 30_encoding.md: encoding and decoding as inverses of each other, the words the decoder rejects, and from
these O1 to O5. -/

namespace Sys2Proof

/-! ### Decoding an encoded instruction -/

/-- A well-formed instruction is read back from its words, whatever follows them. -/
theorem decode_encode {i : Instr} (h : i.wf = true) (rest : List Word) :
    decode (encode i ++ rest) = .command i rest := by
  cases i
  -- The payload is as long as the operand counts; then format N; then the other operands.
  case fbLd payload | msgLdb payload | msgLdbits payload =>
    simp [encode, decode, decodeCommand, Instr.opcode, Instr.operand, Instr.payload, payloadCount,
      payload_length_of_fits h, decodeList_append]
  case reset | lfsrStepi | lfsrStepq | dsssSpread | rrcTaps | rrcShapei | rrcShapeq | oqpskMod | frmBuild | asm |
      rewind | selfchk =>
    simp [encode, decode, decodeCommand, Instr.opcode, Instr.operand, Instr.payload]
    exact decodeN_zero _ _ _
  all_goals
    simp [encode, decode, decodeCommand, Instr.opcode, Instr.operand, Instr.payload, decodeCsrWr, decodeVerify]

/-! ### The words a decoded instruction came from -/

/-- A command word and the words after it are an encoding when opcode, operand and payload agree. -/
theorem cons_eq_encode_append {w : Word} {ws rest : List Word} {i : Instr} (ho : opcodeOf w = i.opcode)
    (ha : operandOf w = i.operand) (hp : ws = i.payload ++ rest) : w :: ws = encode i ++ rest := by
  rw [encode, ← ho, ← ha, cmdWord_fields, hp, List.cons_append]

theorem decodeN_eq_command {w : Word} {i j : Instr} {ws rest : List Word} (h : decodeN w j ws = .command i rest) :
    operandOf w = 0 ∧ j = i ∧ ws = rest := by
  unfold decodeN at h
  split at h
  next ha => exact ⟨ha, Decoded.command.inj h⟩
  next => cases h

theorem decodeList_eq_command {n : Nat} {mk : List Word → Instr} {i : Instr} {ws rest : List Word}
    (h : decodeList n mk ws = .command i rest) :
    ∃ payload, payload.length = n ∧ mk payload = i ∧ ws = payload ++ rest := by
  unfold decodeList at h
  split at h
  next => cases h
  next hl =>
    obtain ⟨rfl, rfl⟩ := Decoded.command.inj h
    exact ⟨ws.take n, List.length_take_of_le (Nat.not_lt.mp hl), rfl, (List.take_append_drop n ws).symm⟩

theorem decodeCsrWr_eq_command {a : Operand} {i : Instr} {ws rest : List Word}
    (h : decodeCsrWr a ws = .command i rest) : ∃ v, .csrWr a v = i ∧ ws = v :: rest := by
  unfold decodeCsrWr at h
  split at h
  next v _ =>
    obtain ⟨rfl, rfl⟩ := Decoded.command.inj h
    exact ⟨v, rfl, rfl⟩
  next => cases h

theorem decodeVerify_eq_command {a : Operand} {i : Instr} {ws rest : List Word}
    (h : decodeVerify a ws = .command i rest) : ∃ hi lo, .verify a hi lo = i ∧ ws = hi :: lo :: rest := by
  unfold decodeVerify at h
  split at h
  next hi lo _ =>
    obtain ⟨rfl, rfl⟩ := Decoded.command.inj h
    exact ⟨hi, lo, rfl, rfl⟩
  next => cases h

/-- The count operand is the length of the payload it counts, and that length fits it (30_encoding.md R101, R102). -/
theorem counted_payload {a : Operand} {payload : List Word} (h : payload.length = a.toNat) :
    payloadFits payload = true ∧ a = BitVec.ofNat 24 payload.length := by
  refine ⟨?_, ?_⟩
  · rw [payloadFits, h]
    exact decide_eq_true a.isLt
  · rw [h, BitVec.ofNat_toNat, BitVec.setWidth_eq]

/-- What decodes is the encoding of the well-formed instruction decoded (30_encoding.md R100 to R104). -/
theorem encode_decode {ws rest : List Word} {i : Instr} (h : decode ws = .command i rest) :
    i.wf = true ∧ ws = encode i ++ rest := by
  cases ws with
  | nil => cases h
  | cons w ws =>
    change decodeCommand w ws = .command i rest at h
    unfold decodeCommand at h
    split at h
    case h_26 => cases h
    case h_2 ho =>
      obtain ⟨v, rfl, rfl⟩ := decodeCsrWr_eq_command h
      exact ⟨rfl, cons_eq_encode_append ho rfl rfl⟩
    case h_25 ho =>
      obtain ⟨hi, lo, rfl, rfl⟩ := decodeVerify_eq_command h
      exact ⟨rfl, cons_eq_encode_append ho rfl rfl⟩
    -- The three counted payloads; then format N; then format A.
    case h_11 ho | h_18 ho | h_19 ho =>
      obtain ⟨payload, hl, rfl, rfl⟩ := decodeList_eq_command h
      have hc : payloadCount w = (operandOf w).toNat := by simp [payloadCount_eq, ho]
      obtain ⟨fits, ha⟩ := counted_payload (hl.trans hc)
      exact ⟨fits, cons_eq_encode_append ho ha rfl⟩
    case h_1 ho | h_7 ho | h_8 ho | h_12 ho | h_13 ho | h_14 ho | h_15 ho | h_16 ho | h_20 ho | h_21 ho | h_23 ho |
        h_24 ho =>
      obtain ⟨ha, rfl, rfl⟩ := decodeN_eq_command h
      exact ⟨rfl, cons_eq_encode_append ho ha rfl⟩
    all_goals
      obtain ⟨rfl, rfl⟩ := Decoded.command.inj h
      exact ⟨rfl, cons_eq_encode_append ‹opcodeOf w = _› rfl rfl⟩

/-! ### The rows of the opcode map -/

/-- Every instruction has its row: in format N its operand is 0 (30_encoding.md R101, R113). -/
theorem exists_row (i : Instr) : ∃ r ∈ opTable, r.op = i.opcode ∧ (r.format = .n → i.operand = 0) := by
  have operandRow {op : BitVec 8} {a : Operand} (h : ∃ r ∈ opTable, r.op = op ∧ r.format ≠ .n) :
      ∃ r ∈ opTable, r.op = op ∧ (r.format = .n → a = 0) := by
    obtain ⟨r, hr, ho, hf⟩ := h
    exact ⟨r, hr, ho, fun hn => absurd hn hf⟩
  have plainRow {op : BitVec 8} (h : ∃ r ∈ opTable, r.op = op) :
      ∃ r ∈ opTable, r.op = op ∧ (r.format = .n → (0 : Operand) = 0) := by
    obtain ⟨r, hr, ho⟩ := h
    exact ⟨r, hr, ho, fun _ => rfl⟩
  cases i
  case reset | lfsrStepi | lfsrStepq | dsssSpread | rrcTaps | rrcShapei | rrcShapeq | oqpskMod | frmBuild | asm |
      rewind | selfchk => exact plainRow (by decide)
  all_goals exact operandRow (by simp only [Instr.opcode]; decide)

/-- No two rows of the map share an operation code (30_encoding.md R113). -/
theorem opTable_nodup : (opTable.map OpRow.op).Nodup := by decide

theorem length_filter_selects_le_one (w : Word) : (opTable.filter fun r => r.selects w).length ≤ 1 := by
  calc (opTable.filter fun r => r.selects w).length
      = opTable.countP fun r => r.selects w := List.countP_eq_length_filter.symm
    _ ≤ opTable.countP fun r => r.op == opcodeOf w := List.countP_mono_left fun r _ hs => by
        simpa using (((r.selects_iff w).mp hs).1).symm
    _ = (opTable.map OpRow.op).count (opcodeOf w) := by rw [List.count, List.countP_map]; rfl
    _ ≤ 1 := List.nodup_iff_count_le_one.mp opTable_nodup _

/-! ### The words the decoder rejects -/

/-- Why a word that no row selects is no operation: it depends on the word alone (30_encoding.md R114, R115). -/
def rejectionOf (w : Word) : Rejection :=
  if ∃ r ∈ opTable, r.op = opcodeOf w then .reservedOperand (opcodeOf w) (operandOf w) else .illegalOpcode (opcodeOf w)

theorem decodeN_of_operand_ne {w : Word} (h : operandOf w ≠ 0) (i : Instr) (rest : List Word) :
    decodeN w i rest = .rejected (.reservedOperand (opcodeOf w) (operandOf w)) rest := if_neg h

theorem decodeN_eq_rejected {w : Word} {i : Instr} {why : Rejection} {ws rest : List Word}
    (h : decodeN w i ws = .rejected why rest) : operandOf w ≠ 0 := by
  intro ha
  rw [decodeN, if_pos ha] at h
  cases h

theorem decodeList_ne_rejected (n : Nat) (mk : List Word → Instr) (why : Rejection) (ws rest : List Word) :
    decodeList n mk ws ≠ .rejected why rest := by
  unfold decodeList
  split <;> exact nofun

theorem decodeCsrWr_ne_rejected (a : Operand) (why : Rejection) (ws rest : List Word) :
    decodeCsrWr a ws ≠ .rejected why rest := by
  cases ws <;> exact nofun

theorem decodeVerify_ne_rejected (a : Operand) (why : Rejection) (ws rest : List Word) :
    decodeVerify a ws ≠ .rejected why rest := by
  match ws with
  | [] => exact nofun
  | [_] => exact nofun
  | _ :: _ :: _ => exact nofun

/-- A format N word that no row selects has an operand. -/
theorem Unselected.operand_ne {w : Word} (h : Unselected w) {op : BitVec 8} (ho : opcodeOf w = op)
    (row : ∃ r ∈ opTable, r.op = op ∧ r.format = .n) : operandOf w ≠ 0 := by
  obtain ⟨r, hr, rfl, -⟩ := row
  exact fun ha => h.fields_ne_row hr ⟨ho, fun _ => ha⟩

/-- A format N word with a non-zero operand is selected by no row. -/
theorem unselected_of_reserved {w : Word} {op : BitVec 8} (ho : opcodeOf w = op)
    (row : ∀ r ∈ opTable, r.op = op → r.format = .n) (ha : operandOf w ≠ 0) : Unselected w := by
  intro r hr
  rw [← Bool.not_eq_true, r.selects_iff]
  exact fun ⟨hop, hn⟩ => ha (hn (row r hr (hop.symm.trans ho)))

/-- A word whose operation code is not in the map is selected by no row. -/
theorem unselected_of_illegal {w : Word} (h : ∀ r ∈ opTable, r.op ≠ opcodeOf w) : Unselected w := by
  intro r hr
  rw [← Bool.not_eq_true, r.selects_iff]
  exact fun ⟨hop, _⟩ => h r hr hop.symm

/-- Only a word that no row selects is rejected. -/
theorem unselected_of_decode {w : Word} {why : Rejection} {ws rest : List Word}
    (h : decode (w :: ws) = .rejected why rest) : Unselected w := by
  change decodeCommand w ws = .rejected why rest at h
  unfold decodeCommand at h
  split at h
  case h_26 =>
    exact unselected_of_illegal (by simp_all [opTable, eq_comm])
  case h_2 => exact absurd h (decodeCsrWr_ne_rejected _ _ _ _)
  case h_25 => exact absurd h (decodeVerify_ne_rejected _ _ _ _)
  case h_11 | h_18 | h_19 => exact absurd h (decodeList_ne_rejected _ _ _ _ _)
  case h_1 ho | h_7 ho | h_8 ho | h_12 ho | h_13 ho | h_14 ho | h_15 ho | h_16 ho | h_20 ho | h_21 ho | h_23 ho |
      h_24 ho => exact unselected_of_reserved ho (by decide) (decodeN_eq_rejected h)
  all_goals cases h

/-- A word that no row selects is rejected for the same reason whatever follows it. -/
theorem decode_eq_rejectionOf {w : Word} (h : Unselected w) (rest : List Word) :
    decode (w :: rest) = .rejected (rejectionOf w) rest := by
  change decodeCommand w rest = .rejected (rejectionOf w) rest
  unfold decodeCommand
  split
  case h_26 =>
    have illegal : ¬∃ r ∈ opTable, r.op = opcodeOf w := by simp_all [opTable, eq_comm]
    rw [rejectionOf, if_neg illegal]
  case h_1 ho | h_7 ho | h_8 ho | h_12 ho | h_13 ho | h_14 ho | h_15 ho | h_16 ho | h_20 ho | h_21 ho | h_23 ho |
      h_24 ho =>
    rw [rejectionOf, if_pos (ho ▸ by decide)]
    exact decodeN_of_operand_ne (h.operand_ne ho (by decide)) _ _
  all_goals exact absurd ‹opcodeOf w = _› (h.opcode_ne (by decide))

/-! ### The obligations -/

/-- Settles O3. -/
theorem decodeOfEncodeIsTheInstruction : Obligations.DecodeOfEncodeIsTheInstruction :=
  fun _ rest h => decode_encode h rest

/-- Settles O4. -/
theorem encodeOfDecodeIsTheWords : Obligations.EncodeOfDecodeIsTheWords := fun _ _ _ => encode_decode

/-- Settles O5: rejection and its reason depend on the word alone, and the rows have distinct operation codes. -/
theorem wordIsRejectedExactlyWhenNoRowSelectsIt : Obligations.WordIsRejectedExactlyWhenNoRowSelectsIt := by
  refine fun w => ⟨⟨fun ⟨why, h⟩ => unselected_of_decode (h []), fun h => ?_⟩, length_filter_selects_le_one w⟩
  exact ⟨rejectionOf w, decode_eq_rejectionOf h⟩

/-- Settles O1: the table is written out, and every instruction has a row that selects its command word. -/
theorem opcodeMapIsTheSpecsTable : Obligations.OpcodeMapIsTheSpecsTable := by
  refine ⟨by decide, fun r w => beq_iff_eq, fun i => ?_⟩
  obtain ⟨r, hr, ho, hn⟩ := exists_row i
  refine ⟨r, hr, ho, (r.selects_iff _).mpr ⟨?_, fun hf => ?_⟩⟩
  · rw [opcodeOf_cmdWord, ho]
  · rw [operandOf_cmdWord, hn hf]

/-- Settles O2: the words are encodings, and decoding reads an encoding back. -/
theorem writtenWordsDecodeToTheirCommands : Obligations.WrittenWordsDecodeToTheirCommands :=
  ⟨decode_encode (i := .reset) rfl [], decode_encode (i := .csrWr 1 10) rfl [],
    decode_encode (i := .lfsrLdq 0x1AC3FC) rfl [], decode_encode (i := .fbLd [1, 0, 0, 1]) rfl [0x21000000],
    decode_encode (i := .oqpskMod) rfl [], decode_encode (i := .msgLdb [0xFF]) rfl [0x63000000],
    decode_encode (i := .pull 1024) rfl [], decode_encode (i := .verify 1 0x80000108 0x421284A1) rfl []⟩

end Sys2Proof
end

section
/-! PROOFS for 10_state.md and 70_reset_and_hazards.md: the step with a whole command, without one and with the reset
input asserted, and from these O6, O9 and O10. -/

namespace Sys2Proof

/-- A command word with too few words after it waits for its payload (30_encoding.md R102). -/
theorem decode_of_short {w : Word} {ws : List Word} (h : ws.length < payloadCount w) :
    decode (w :: ws) = .incomplete := by
  change decodeCommand w ws = .incomplete
  unfold decodeCommand
  split
  case h_2 ho =>
    have hn : payloadCount w = 1 := by simp [payloadCount_eq, ho]
    match ws, hn ▸ h with
    | [], _ => rfl
  case h_25 ho =>
    have hn : payloadCount w = 2 := by simp [payloadCount_eq, ho]
    match ws, hn ▸ h with
    | [], _ => rfl
    | [_], _ => rfl
  case h_11 | h_18 | h_19 => exact decodeList_short h _
  -- Every other word has no payload to wait for.
  all_goals
    have hn : payloadCount w = 0 := by simp_all [payloadCount_eq]
    exact absurd h (hn ▸ Nat.not_lt_zero _)

end Sys2Proof

namespace Sys2Proof.Machine

theorem step_of_incomplete {s : State} (hr : s.resetIn = false) (hd : decode s.port = .incomplete) :
    step s = .next s := by
  simp [step, hr, hd]

theorem step_of_resetIn {s : State} (hr : s.resetIn = true) : step s = .next s.resetByInput := if_pos hr

/-! ### The obligations -/

/-- Settles O6. -/
theorem stepRunsTheDecodedCommand : Obligations.StepRunsTheDecodedCommand := fun _ _ _ => step_of_command

/-- Settles O9: an empty port and a port that lacks payload words both hold no whole command. -/
theorem stepWaitsForAWholeCommand : Obligations.StepWaitsForAWholeCommand := by
  refine fun s hr waiting => step_of_incomplete hr ?_
  obtain hp | ⟨w, ws, hp, short⟩ := waiting
  · rw [hp]
    rfl
  · rw [hp, decode_of_short short]

/-- Settles O10: both end in the restarted state, which keeps the port. -/
theorem resetInputHasTheEffectOfReset : Obligations.ResetInputHasTheEffectOfReset := fun s hr =>
  ⟨_, _, step_of_resetIn hr, exec_reset s, rfl, s.resetByInput_port⟩

end Sys2Proof.Machine
end

section
/-! PROOFS for 41_dsss.md: the two channels of the spreader apart from each other, each in closed form, and from these
O38, O39 and O40. -/

namespace Sys2Proof.Machine

/-! ### The bits of one channel -/

/-- The bits at the positions of parity `q`, where the first bit stands at position `p` (41_dsss.md R151). -/
def channelBits (q p : Nat) : List Bool → List Bool
  | [] => []
  | d :: ds => if p % 2 = q then d :: channelBits q (p + 1) ds else channelBits q (p + 1) ds

theorem channelBits_cons_of_eq {q p : Nat} (h : p % 2 = q) (d : Bool) (ds : List Bool) :
    channelBits q p (d :: ds) = d :: channelBits q (p + 1) ds := if_pos h

theorem channelBits_cons_of_ne {q p : Nat} (h : p % 2 ≠ q) (d : Bool) (ds : List Bool) :
    channelBits q p (d :: ds) = channelBits q (p + 1) ds := if_neg h

/-- The channel takes every other bit, the first one at once when the parity of `p` is its own. -/
theorem channelBits_getElem? {q : Nat} (hq : q < 2) (p : Nat) (fb : List Bool) (m : Nat) :
    (channelBits q p fb)[m]? = fb[2 * m + (p + q) % 2]? := by
  induction fb generalizing p m with
  | nil => rfl
  | cons d ds ih =>
    by_cases h : p % 2 = q
    · rw [channelBits_cons_of_eq h]
      cases m with
      | zero =>
        rw [show 2 * 0 + (p + q) % 2 = 0 by omega]
        rfl
      | succ m =>
        rw [show 2 * (m + 1) + (p + q) % 2 = 2 * m + (p + 1 + q) % 2 + 1 by omega, List.getElem?_cons_succ,
          List.getElem?_cons_succ]
        exact ih (p + 1) m
    · rw [channelBits_cons_of_ne h, show 2 * m + (p + q) % 2 = 2 * m + (p + 1 + q) % 2 + 1 by omega,
        List.getElem?_cons_succ]
      exact ih (p + 1) m

theorem channelBits_length {q : Nat} (hq : q < 2) (p : Nat) (fb : List Bool) :
    (channelBits q p fb).length = (fb.length + 1 - (p + q) % 2) / 2 := by
  induction fb generalizing p with
  | nil => simp only [channelBits, List.length_nil]; omega
  | cons d ds ih =>
    by_cases h : p % 2 = q
    · rw [channelBits_cons_of_eq h, List.length_cons, List.length_cons, ih]
      omega
    · rw [channelBits_cons_of_ne h, List.length_cons, ih]
      omega

/-! ### The chips of one channel -/

/-- A chip group in closed form: each output bit xor the data bit (41_dsss.md R151; 30_encoding.md R90, R91). -/
theorem chipGroup_eq (d : Bool) (cpb : Nat) (s : LfsrState) :
    chipGroup d cpb s = ((List.range cpb).map fun k => chipOf (outputBit s k ^^ d), stateAfter s cpb) := by
  rw [chipGroup, generateSequence_eq, List.map_map]
  congr 1
  refine List.map_congr_left fun k _ => ?_
  cases d
  · simp
  · simp [negChip_chipOf]

theorem chipGroup_state (d : Bool) (cpb : Nat) (s : LfsrState) : (chipGroup d cpb s).2 = stateAfter s cpb := by
  rw [chipGroup_eq]

/-- One chip group for each bit, the generator not reset between them (41_dsss.md R151; 70_reset_and_hazards.md
R320). -/
def channelChips (cpb : Nat) : List Bool → LfsrState → List Chip
  | [], _ => []
  | d :: ds, s => (chipGroup d cpb s).1 ++ channelChips cpb ds (stateAfter s cpb)

theorem channelChips_length (cpb : Nat) (bits : List Bool) (s : LfsrState) :
    (channelChips cpb bits s).length = cpb * bits.length := by
  induction bits generalizing s with
  | nil => rfl
  | cons d ds ih => rw [channelChips, List.length_append, chipGroup_length, ih, List.length_cons, Nat.mul_succ,
      Nat.add_comm]

/-- Chip `j` of a channel is output bit `j` of its generator, xor the bit of the group it stands in (41_dsss.md
R151). -/
theorem channelChips_getElem? {cpb : Nat} (hc : 0 < cpb) (bits : List Bool) (s : LfsrState) (j : Nat) :
    (channelChips cpb bits s)[j]? = bits[j / cpb]?.map fun d => chipOf (outputBit s j ^^ d) := by
  induction bits generalizing s j with
  | nil => rfl
  | cons d ds ih =>
    rw [channelChips]
    rcases Nat.lt_or_ge j cpb with first | later
    · rw [List.getElem?_append_left (by simpa using first), chipGroup_eq, List.getElem?_map, List.getElem?_range first,
        Nat.div_eq_of_lt first]
      rfl
    · obtain ⟨i, rfl⟩ := Nat.exists_eq_add_of_le later
      rw [List.getElem?_append_right (by simp), chipGroup_length, Nat.add_sub_cancel_left, ih, ← outputBit_add,
        Nat.add_div_left i hc, List.getElem?_cons_succ]

/-! ### The spreader as two channels -/

/-- Each channel is spread from its own bits and its own generator: there is no cross-talk (41_dsss.md R151, R152). -/
theorem spreadFrom_eq (p : Nat) (fb : List Bool) (cpb : Nat) (si sq : LfsrState) :
    spreadFrom p fb cpb si sq =
      { iChips := channelChips cpb (channelBits 0 p fb) si
        qChips := channelChips cpb (channelBits 1 p fb) sq
        stateI := stateAfter si (cpb * (channelBits 0 p fb).length)
        stateQ := stateAfter sq (cpb * (channelBits 1 p fb).length) } := by
  have state (d : Bool) (ds : List Bool) (s : LfsrState) :
      stateAfter s (cpb * (d :: ds).length) = stateAfter (stateAfter s cpb) (cpb * ds.length) := by
    rw [List.length_cons, Nat.mul_succ, Nat.add_comm, stateAfter_add]
  induction fb generalizing p si sq with
  | nil => rfl
  | cons d ds ih =>
    rw [spreadFrom]
    by_cases h : p % 2 = 0
    · simp only [if_pos h, ih, channelBits_cons_of_eq h, channelBits_cons_of_ne (q := 1) (p := p) (by omega), state,
        channelChips, chipGroup_state]
    · simp only [if_neg h, ih, channelBits_cons_of_ne h, channelBits_cons_of_eq (q := 1) (p := p) (by omega), state,
        channelChips, chipGroup_state]

section
variable (fb : List Bool) (cpb : Nat) (si sq : LfsrState)

theorem spread_iChips_length : (spread fb cpb si sq).iChips.length = cpb * ((fb.length + 1) / 2) := by
  rw [spread, spreadFrom_eq, channelChips_length, channelBits_length (by decide)]
  rfl

theorem spread_qChips_length : (spread fb cpb si sq).qChips.length = cpb * (fb.length / 2) := by
  rw [spread, spreadFrom_eq, channelChips_length, channelBits_length (by decide)]
  rfl

theorem spread_stateI : (spread fb cpb si sq).stateI = stateAfter si (cpb * ((fb.length + 1) / 2)) := by
  simp only [spread, spreadFrom_eq, channelBits_length Nat.two_pos]
  rfl

theorem spread_stateQ : (spread fb cpb si sq).stateQ = stateAfter sq (cpb * (fb.length / 2)) := by
  simp only [spread, spreadFrom_eq, channelBits_length Nat.one_lt_two]
  rfl

/-- Chip `j` of the I channel belongs to the bit at position `2 (j div cpb)`. -/
theorem spread_iChips_getElem? (hc : 0 < cpb) (j : Nat) :
    (spread fb cpb si sq).iChips[j]? = fb[2 * (j / cpb)]?.map fun d => chipOf (outputBit si j ^^ d) := by
  rw [spread, spreadFrom_eq, channelChips_getElem? hc, channelBits_getElem? (by decide)]
  rfl

/-- Chip `j` of the Q channel belongs to the bit at position `2 (j div cpb) + 1`. -/
theorem spread_qChips_getElem? (hc : 0 < cpb) (j : Nat) :
    (spread fb cpb si sq).qChips[j]? = fb[2 * (j / cpb) + 1]?.map fun d => chipOf (outputBit sq j ^^ d) := by
  rw [spread, spreadFrom_eq, channelChips_getElem? hc, channelBits_getElem? (by decide)]

end

/-! ### One bit changed -/

/-- The chip of a bit that is changed at position `p` and read at position `i`: negated exactly where the two agree
(41_dsss.md R153). -/
theorem map_chipOf_set {fb : List Bool} {p : Nat} {d : Bool} (h : fb[p]? = some d) (i : Nat) (out : Bool) (P : Prop)
    [Decidable P] (hP : P ↔ p = i) :
    ((fb.set p (!d))[i]?.map fun b => chipOf (out ^^ b)) =
      (fb[i]?.map fun b => chipOf (out ^^ b)).map fun c => if P then negChip c else c := by
  by_cases hi : p = i
  · subst hi
    obtain ⟨inside, -⟩ := List.getElem?_eq_some_iff.mp h
    simp [h, List.getElem?_set_self inside, hP, negChip_chipOf]
  · rw [List.getElem?_set_ne hi, Option.map_map]
    simp [hP, hi, Function.comp_def]

/-! ### The obligations -/

/-- Settles O38. -/
theorem spreadLengthsAndFinalStates : Obligations.SpreadLengthsAndFinalStates := fun fb si sq =>
  ⟨spread_iChips_length fb 256 si sq, spread_qChips_length fb 256 si sq, spread_stateI fb 256 si sq,
    spread_stateQ fb 256 si sq⟩

/-- Settles O39: chip `256 m + k` stands in group `m`. -/
theorem spreadChipIsOutputBitXorDataBit : Obligations.SpreadChipIsOutputBitXorDataBit := by
  intro fb si sq m k d hk
  have group : (256 * m + k) / 256 = m := by omega
  refine ⟨fun hd => ?_, fun hd => ?_⟩
  · rw [spread_iChips_getElem? _ _ _ _ (by decide), group, hd]
    rfl
  · rw [spread_qChips_getElem? _ _ _ _ (by decide), group, hd]
    rfl

/-- Settles O40: chip by chip on both channels; the final states depend on the number of bits alone. -/
theorem changingABitNegatesItsChipGroup : Obligations.ChangingABitNegatesItsChipGroup := by
  intro fb si sq p d hd
  refine ⟨List.ext_getElem? fun j => ?_, List.ext_getElem? fun j => ?_, ?_, ?_⟩
  · rw [List.getElem?_mapIdx, spread_iChips_getElem? _ _ _ _ (by decide), spread_iChips_getElem? _ _ _ _ (by decide)]
    exact map_chipOf_set hd _ _ _ (by omega)
  · rw [List.getElem?_mapIdx, spread_qChips_getElem? _ _ _ _ (by decide), spread_qChips_getElem? _ _ _ _ (by decide)]
    exact map_chipOf_set hd _ _ _ (by omega)
  · rw [spread_stateI, spread_stateI, List.length_set]
  · rw [spread_stateQ, spread_stateQ, List.length_set]

end Sys2Proof.Machine
end

section
/-! PROOFS for 40_lfsr.md: the step as a linear map that has an inverse, its powers as polynomials modulo the feedback
polynomial `x^23 + x^18 + 1`, and from these O31, O33 and O34. -/

namespace Sys2Proof.Machine

/-! ### The step and its predecessor -/

/-- Below the top the predecessor is a shift (40_lfsr.md R134). -/
theorem getLsbD_of_advance {s : LfsrState} {j : Nat} (h1 : 1 ≤ j) (h22 : j ≤ 22) :
    s.getLsbD j = (advance s).getLsbD (j - 1) := by
  rw [getLsbD_advance_of_lt (by omega), Nat.sub_add_cancel h1]

/-- The bit shifted out is recovered from the feedback bit (40_lfsr.md R134). -/
theorem getLsbD_zero_of_advance (s : LfsrState) :
    s.getLsbD 0 = ((advance s).getLsbD 22 ^^ (advance s).getLsbD 17) := by
  rw [getLsbD_advance_top, getLsbD_advance_of_lt (by decide), Bool.xor_assoc, Bool.xor_self, Bool.xor_false]

theorem advance_injective : Function.Injective advance := by
  intro a b h
  refine BitVec.eq_of_getLsbD_eq fun j hj => ?_
  rcases Nat.eq_zero_or_pos j with rfl | hpos
  · rw [getLsbD_zero_of_advance, getLsbD_zero_of_advance, h]
  · rw [getLsbD_of_advance hpos (by omega), getLsbD_of_advance hpos (by omega), h]

theorem advance_bijective : Function.Bijective advance := by
  have : Finite LfsrState := Finite.of_injective BitVec.toFin fun _ _ h => BitVec.toFin_inj.mp h
  exact Finite.injective_iff_bijective.mp advance_injective

theorem advance_zero : advance 0 = 0 := by decide

theorem advance_eq_zero_iff (s : LfsrState) : advance s = 0 ↔ s = 0 := by
  rw [← advance_injective.eq_iff (a := s), advance_zero]

/-- A loaded generator never runs into the zero state (40_lfsr.md R134). -/
theorem stateAfter_ne_zero {s : LfsrState} (h : s ≠ 0) (n : Nat) : stateAfter s n ≠ 0 := by
  induction n generalizing s with
  | zero => exact h
  | succ n ih => exact ih (mt (advance_eq_zero_iff s).mp h)

/-- The recurrence of 40_lfsr.md R133. -/
theorem outputBit_recurrence (s : LfsrState) (k : Nat) :
    outputBit s (k + 23) = (outputBit s k ^^ outputBit s (k + 18)) := by
  have later {j : Nat} (hj : j < 23) : outputBit s (k + j) = (stateAfter s k).getLsbD j := by
    rw [outputBit_add, outputBit_eq_getLsbD _ hj]
  calc outputBit s (k + 23) = outputBit (advance (stateAfter s k)) 22 := outputBit_add s k 23
    _ = (advance (stateAfter s k)).getLsbD 22 := outputBit_eq_getLsbD _ (by decide)
    _ = (outputBit s (k + 0) ^^ outputBit s (k + 18)) := by
      rw [getLsbD_advance_top, later (by decide), later (by decide)]

/-! ### Sums without carry -/

/-- The sum without carry of `f 0` to `f (n - 1)`. -/
def xorSum (f : Nat → LfsrState) : Nat → LfsrState
  | 0 => 0
  | n + 1 => xorSum f n ^^^ f n

/-- A map that respects sums without carry. -/
structure XorLinear (φ : LfsrState → LfsrState) : Prop where
  zero : φ 0 = 0
  xor (a b : LfsrState) : φ (a ^^^ b) = φ a ^^^ φ b

theorem XorLinear.xorSum {φ : LfsrState → LfsrState} (h : XorLinear φ) (f : Nat → LfsrState) (n : Nat) :
    φ (xorSum f n) = Machine.xorSum (fun i => φ (f i)) n := by
  induction n with
  | zero => exact h.zero
  | succ n ih => rw [Machine.xorSum, h.xor, ih, Machine.xorSum]

theorem xorSum_xor (f g : Nat → LfsrState) (n : Nat) :
    xorSum (fun i => f i ^^^ g i) n = xorSum f n ^^^ xorSum g n := by
  induction n with
  | zero => simp [xorSum]
  | succ n ih => rw [xorSum, ih, xorSum, xorSum]; ac_rfl

theorem xorSum_succ_first (f : Nat → LfsrState) (n : Nat) :
    xorSum f (n + 1) = f 0 ^^^ xorSum (fun i => f (i + 1)) n := by
  induction n with
  | zero => simp [xorSum]
  | succ n ih => rw [xorSum, ih, xorSum, BitVec.xor_assoc]

theorem xorSum_congr {f g : Nat → LfsrState} {n : Nat} (h : ∀ i, i < n → f i = g i) : xorSum f n = xorSum g n := by
  induction n with
  | zero => rfl
  | succ n ih => rw [xorSum, xorSum, ih fun i hi => h i (Nat.lt_succ_of_lt hi), h n (Nat.lt_succ_self n)]

theorem advance_xorLinear : XorLinear advance where
  zero := advance_zero
  xor a b := by
    refine BitVec.eq_of_getLsbD_eq fun j _ => ?_
    simp only [BitVec.getLsbD_xor, getLsbD_advance]
    split
    · cases a.getLsbD 0 <;> cases a.getLsbD 18 <;> simp
    · rfl

/-! ### Polynomials in the step

A polynomial of degree below 23 over the bits is held in a word: bit `i` is the coefficient of `x^i`. -/

/-- The polynomial `p` of a map, applied to `a`: the sum of `step^i a` over the set bits `i` of `p`. -/
def polyApply (step : LfsrState → LfsrState) (p a : LfsrState) : LfsrState :=
  xorSum (fun i => if p.getLsbD i then step^[i] a else 0) 23

/-- `x p` modulo `x^23 + x^18 + 1`. -/
def mulX (p : LfsrState) : LfsrState := (p <<< 1) ^^^ (if p.getLsbD 22 then 0x40001 else 0)

/-- `p q` modulo `x^23 + x^18 + 1`. -/
def mulPoly (p q : LfsrState) : LfsrState := polyApply mulX p q

theorem polyApply_xorLinear (step : LfsrState → LfsrState) (a : LfsrState) :
    XorLinear fun p => polyApply step p a where
  zero := by simp [polyApply, xorSum]
  xor p q := by
    simp only [polyApply, ← xorSum_xor]
    refine xorSum_congr fun i _ => ?_
    rw [BitVec.getLsbD_xor]
    cases p.getLsbD i <;> cases q.getLsbD i <;> simp

/-- The step satisfies its feedback polynomial: `x^23 = x^18 + 1` (40_lfsr.md R133). -/
theorem stateAfter_feedback (s : LfsrState) : stateAfter s 23 = stateAfter s 0 ^^^ stateAfter s 18 := by
  refine BitVec.eq_of_getLsbD_eq fun j hj => ?_
  rw [BitVec.getLsbD_xor]
  simp only [← outputBit_eq_getLsbD _ hj, ← outputBit_add]
  rw [Nat.add_comm 23, Nat.zero_add, Nat.add_comm 18]
  exact outputBit_recurrence s j

theorem polyApply_feedback (s : LfsrState) : polyApply advance 0x40001 s = stateAfter s 23 := by
  rw [stateAfter_feedback]
  simp [polyApply, xorSum, stateAfter]

/-- Multiplying the polynomial by `x` is one more step. -/
theorem polyApply_mulX (p s : LfsrState) : polyApply advance (mulX p) s = advance (polyApply advance p s) := by
  have shifted : polyApply advance (p <<< 1) s =
      xorSum (fun i => if p.getLsbD i then advance^[i + 1] s else 0) 22 := by
    have low : (p <<< 1).getLsbD 0 = false := by simp
    have up {i : Nat} (hi : i < 22) : (p <<< 1).getLsbD (i + 1) = p.getLsbD i := by
      rw [BitVec.getLsbD_shiftLeft, decide_eq_true (by omega : i + 1 < 23), decide_eq_false (by omega : ¬i + 1 < 1)]
      rfl
    rw [polyApply, xorSum_succ_first, low, if_neg Bool.false_ne_true]
    exact BitVec.zero_xor.trans (xorSum_congr fun i hi => by rw [up hi])
  have top : polyApply advance (if p.getLsbD 22 then 0x40001 else 0) s =
      if p.getLsbD 22 then advance^[22 + 1] s else 0 := by
    split
    · exact polyApply_feedback s
    · exact (polyApply_xorLinear advance s).zero
  calc polyApply advance (mulX p) s
      = xorSum (fun i => if p.getLsbD i then advance^[i + 1] s else 0) 23 := by
        rw [mulX, (polyApply_xorLinear advance s).xor, shifted, top]
        rfl
    _ = xorSum (fun i => advance (if p.getLsbD i then advance^[i] s else 0)) 23 := by
        refine xorSum_congr fun i _ => ?_
        rw [Function.iterate_succ_apply']
        split
        · rfl
        · exact advance_zero.symm
    _ = advance (polyApply advance p s) := (advance_xorLinear.xorSum _ 23).symm

/-- Multiplying polynomials is applying one after the other. -/
theorem polyApply_mulPoly (p q s : LfsrState) :
    polyApply advance (mulPoly p q) s = polyApply advance p (polyApply advance q s) := by
  have semiconj : Function.Semiconj (fun r => polyApply advance r s) mulX advance := fun r => polyApply_mulX r s
  rw [mulPoly, polyApply]
  refine ((polyApply_xorLinear advance s).xorSum _ 23).trans (xorSum_congr fun i _ => ?_)
  split
  · exact semiconj.iterate_right i q
  · exact (polyApply_xorLinear advance s).zero

/-! ### Powers of the step by squaring -/

/-- The exponent with the given binary digits, first digit first. -/
def exponentOf (digits : List Bool) : Nat := digits.foldl (fun n d => 2 * n + d.toNat) 0

/-- `x` to the power with the given binary digits, by squaring. -/
def powX (digits : List Bool) : LfsrState :=
  digits.foldl (fun p d => if d then mulX (mulPoly p p) else mulPoly p p) 1

/-- A polynomial that acts as `n` steps. -/
def ActsAs (p : LfsrState) (n : Nat) : Prop := ∀ s, polyApply advance p s = stateAfter s n

theorem actsAs_one : ActsAs 1 0 := fun s => by simp [polyApply, xorSum, stateAfter]

theorem ActsAs.square {p : LfsrState} {n : Nat} (h : ActsAs p n) : ActsAs (mulPoly p p) (2 * n) := fun s => by
  rw [polyApply_mulPoly, h, h, ← stateAfter_add, Nat.two_mul]

theorem ActsAs.mulX {p : LfsrState} {n : Nat} (h : ActsAs p n) : ActsAs (mulX p) (n + 1) := fun s => by
  rw [polyApply_mulX, h]
  exact (Function.iterate_succ_apply' advance n s).symm

theorem powX_actsAs (digits : List Bool) : ActsAs (powX digits) (exponentOf digits) := by
  have run (p : LfsrState) (n : Nat) (h : ActsAs p n) :
      ActsAs (digits.foldl (fun p d => if d then mulX (mulPoly p p) else mulPoly p p) p)
        (digits.foldl (fun n d => 2 * n + d.toNat) n) := by
    induction digits generalizing p n with
    | nil => exact h
    | cons d digits ih =>
      refine ih _ _ ?_
      cases d
      · exact h.square
      · exact h.square.mulX
  exact run 1 0 actsAs_one

/-- The state after as many steps as the digits say, by squaring. -/
theorem stateAfter_exponentOf (digits : List Bool) (s : LfsrState) :
    stateAfter s (exponentOf digits) = polyApply advance (powX digits) s := (powX_actsAs digits s).symm

/-! ### The period -/

/-- After `2^23 - 1` steps every state has returned (40_lfsr.md R135). -/
theorem stateAfter_period (s : LfsrState) : stateAfter s (2 ^ 23 - 1) = s := by
  have ones : exponentOf (List.replicate 23 true) = 2 ^ 23 - 1 := by decide
  have power : powX (List.replicate 23 true) = 1 := by decide +kernel
  rw [← ones, stateAfter_exponentOf, power]
  exact actsAs_one s

/-- `2^23 - 1` has two prime factors; neither cofactor brings state 1 back. -/
theorem stateAfter_one_47 : stateAfter 1 47 ≠ 1 := by decide +kernel

theorem stateAfter_one_178481 : stateAfter 1 178481 ≠ 1 := by
  have digits : exponentOf (Nat.bits 178481).reverse = 178481 := by decide +kernel
  rw [← digits, stateAfter_exponentOf]
  decide +kernel

/-- A proper divisor of a product of two primes divides one of them. -/
theorem dvd_prime_mul_prime {p q m : Nat} (hp : p.Prime) (hq : q.Prime) (h : m ∣ p * q) (hm : m ≠ p * q) :
    m ∣ p ∨ m ∣ q := by
  obtain ⟨a, b, ha, hb, rfl⟩ := exists_dvd_and_dvd_of_dvd_mul h
  obtain rfl | rfl := (Nat.dvd_prime hp).mp ha
  · exact .inr (by simpa using hb)
  obtain rfl | rfl := (Nat.dvd_prime hq).mp hb
  · exact .inl (by simp)
  · exact absurd rfl hm

/-- State 1 has the full period (40_lfsr.md R135). -/
theorem minimalPeriod_one : Function.minimalPeriod advance 1 = 2 ^ 23 - 1 := by
  by_contra short
  have factors : 2 ^ 23 - 1 = 47 * 178481 := by norm_num
  have divides : Function.minimalPeriod advance 1 ∣ 47 * 178481 :=
    factors ▸ Function.IsPeriodicPt.minimalPeriod_dvd (stateAfter_period 1)
  obtain h | h := dvd_prime_mul_prime (by norm_num) (by norm_num) divides (factors ▸ short)
  · exact stateAfter_one_47 (Function.isPeriodicPt_iff_minimalPeriod_dvd.mpr h)
  · exact stateAfter_one_178481 (Function.isPeriodicPt_iff_minimalPeriod_dvd.mpr h)

/-- The states the generator passes from state 1 are distinct and non-zero, and as many as there are non-zero states. -/
theorem image_stateAfter_one :
    (Finset.range (2 ^ 23 - 1)).image (fun k => (stateAfter 1 k).toNat) = Finset.Ico 1 (2 ^ 23) := by
  refine Finset.eq_of_subset_of_card_le (fun v hv => ?_) (le_of_eq ?_)
  · obtain ⟨k, -, rfl⟩ := Finset.mem_image.mp hv
    have nonzero : (stateAfter 1 k).toNat ≠ 0 := fun h => stateAfter_ne_zero (by decide) k (BitVec.eq_of_toNat_eq h)
    exact Finset.mem_Ico.mpr ⟨Nat.pos_of_ne_zero nonzero, (stateAfter 1 k).isLt⟩
  · have distinct : Set.InjOn (fun k => (stateAfter 1 k).toNat) (Finset.range (2 ^ 23 - 1)) := by
      intro i hi j hj h
      refine Function.iterate_injOn_Iio_minimalPeriod (f := advance) (x := 1) ?_ ?_ (BitVec.eq_of_toNat_eq h)
      · rw [minimalPeriod_one]
        exact Finset.mem_range.mp hi
      · rw [minimalPeriod_one]
        exact Finset.mem_range.mp hj
    rw [Finset.card_image_of_injOn distinct, Finset.card_range, Nat.card_Ico]

/-! ### The obligations -/

/-- Settles O31. -/
theorem outputBitsSatisfyTheRecurrence : Obligations.OutputBitsSatisfyTheRecurrence := fun seed k =>
  ⟨outputBit_recurrence seed k, outputBit_eq_getLsbD seed⟩

/-- Settles O33: the step is injective because its predecessor can be written down. -/
theorem lfsrStepIsABijectionFixingOnlyZeroToZero : Obligations.LfsrStepIsABijectionFixingOnlyZeroToZero := by
  refine ⟨advance_bijective, ?_, advance_eq_zero_iff, fun _ n h => stateAfter_ne_zero h n⟩
  rintro s _ rfl
  exact ⟨fun _ => getLsbD_of_advance, getLsbD_zero_of_advance s⟩

/-- Settles O34: the period of state 1 is the number of non-zero states, so its cycle passes them all. -/
theorem nonZeroStatesLieOnOneCycle : Obligations.NonZeroStatesLieOnOneCycle := by
  refine ⟨stateAfter_period 1, fun n hpos hlt returned => ?_, fun s hs => ?_⟩
  · exact Function.not_isPeriodicPt_of_pos_of_lt_minimalPeriod hpos.ne' (minimalPeriod_one ▸ hlt) returned
  · have nonzero : s.toNat ≠ 0 := fun h => hs (BitVec.eq_of_toNat_eq h)
    have passed : s.toNat ∈ Finset.Ico 1 (2 ^ 23) := Finset.mem_Ico.mpr ⟨Nat.pos_of_ne_zero nonzero, s.isLt⟩
    rw [← image_stateAfter_one] at passed
    obtain ⟨k, hk, h⟩ := Finset.mem_image.mp passed
    exact ⟨k, Finset.mem_range.mp hk, BitVec.eq_of_toNat_eq h⟩

end Sys2Proof.Machine
end

section
/-! PROOFS for 60_exceptions.md: what every operation can do, said once, and from it O15 to O20 and O35. -/

namespace Sys2Proof.Machine

/-! ### What the two modulating operations write -/

/-- What a modulation writes: the taps, both shaped streams and the output (43_oqpsk.md R192). -/
def State.writeModulation (s : State) (m : Modulation) : State :=
  State.setOutput { s with taps := m.taps, ishp := m.iSig, qshp := m.qSig } m.out

/-- What an assembled 2G frame writes: the frame bits, both channels, and the modulation (45_frame.md R220). -/
def State.writeFrame (s : State) (fb : List Bool) (c : Spread) (m : Modulation) : State :=
  State.writeModulation
    { s with fbits := fb, ichip := c.iChips, qchip := c.qChips, lfsrI := c.stateI, lfsrQ := c.stateQ } m

/-- The frame bits of the message, spread from the seeds of the mode (45_frame.md R219, R222). -/
def State.frameSpread (s : State) : Spread :=
  spread (frameBits .g2 s.test s.mbits) Config.chipsPerBit s.seeds.1 s.seeds.2

/-- `ASM` in 2G, the spread chips and the modulation named, so that no proof evaluates them (45_frame.md R220). -/
theorem asm2G_eq {s : State} {c : Spread} {m : Modulation} (hc : c = s.frameSpread)
    (hm : m = modulate c.iChips c.qChips s.halfLength s.spc.toNat) :
    asm2G s =
      if !messageLengthOk .g2 s.mbits.length then .raise .invalidInput
      else if overCapacity (2 * s.halfLength + 1) then .raise .invalidInput
      else if s.spc = 0 then .raise .configurationMismatch
      else if s.seeds.1 = 0 ∨ s.seeds.2 = 0 then .raise .invalidSeed
      else if peakIsZero c.iChips c.qChips s.spc.toNat then .raise .invalidInput
      else .finish (s.writeFrame (frameBits .g2 s.test s.mbits) c m) .done := by
  unfold State.frameSpread at hc
  subst hm hc
  unfold asm2G
  rfl

theorem execOqpskMod_eq (s : State) :
    execOqpskMod s = s.perform
      (if s.spc = 0 then .raise .configurationMismatch
      else if overCapacity (2 * s.halfLength + 1) || overCapacity (s.ichip.length * s.spc.toNat) ||
          overCapacity (s.qchip.length * s.spc.toNat + offsetSamples s.spc.toNat) then .raise .invalidInput
      else if peakIsZero s.ichip s.qchip s.spc.toNat then .raise .invalidInput
      else .finish (s.writeModulation (modulate s.ichip s.qchip s.halfLength s.spc.toNat)) .done) := rfl

/-! ### What a completing operation does -/

/-- `Completes s i u r`: run in `s`, the operation `i` passes its tests and ends in `u` with the response `r`. One
constructor for each way an operation can complete (46_system.md, 40_lfsr.md to 45_frame.md). -/
inductive Completes (s : State) : Instr → State → Response → Prop where
  | reset : Completes s .reset s.restart .done
  | csrWr {r : Operand} {v : Word} (writable : r.toNat ≤ 6) (idle : s.ready = false)
      (clear : csrReservedClear r.toNat v = true) (seed : isSeedCsr r.toNat = true → seedWordInRange v = true) :
      Completes s (.csrWr r v) (csrWrite r.toNat v s) .done
  | csrRd {r : Operand} (exist : r.toNat ≤ 16) :
      Completes s (.csrRd r) { s with res := csrRead r.toNat s } (.ok false [csrRead r.toNat s])
  | bufRd {sel : Operand} (exist : sel.toNat ≤ 7) :
      Completes s (.bufRd sel) s (.ok false (lengthWord (bufferLength sel.toNat s) :: bufferElements sel.toNat s))
  | lfsrLdi {a : Operand} (valid : seedInRange a = true) :
      Completes s (.lfsrLdi a) { s with lfsrI := seedOf a } .done
  | lfsrLdq {a : Operand} (valid : seedInRange a = true) :
      Completes s (.lfsrLdq a) { s with lfsrQ := seedOf a } .done
  | lfsrStepi (loaded : s.lfsrI ≠ 0) :
      Completes s .lfsrStepi { s with lfsrI := advance s.lfsrI, res := bitWord (s.lfsrI.getLsbD 0) }
        (.ok false [bitWord (s.lfsrI.getLsbD 0)])
  | lfsrStepq (loaded : s.lfsrQ ≠ 0) :
      Completes s .lfsrStepq { s with lfsrQ := advance s.lfsrQ, res := bitWord (s.lfsrQ.getLsbD 0) }
        (.ok false [bitWord (s.lfsrQ.getLsbD 0)])
  | lfsrGeni {n : Operand} (loaded : s.lfsrI ≠ 0) :
      Completes s (.lfsrGeni n)
        { s with
          ichip := (generateSequence s.lfsrI n.toNat).1
          lfsrI := (generateSequence s.lfsrI n.toNat).2 } .done
  | lfsrGenq {n : Operand} (loaded : s.lfsrQ ≠ 0) :
      Completes s (.lfsrGenq n)
        { s with
          qchip := (generateSequence s.lfsrQ n.toNat).1
          lfsrQ := (generateSequence s.lfsrQ n.toNat).2 } .done
  | fbLd {payload : List Word} (fits : overCapacity payload.length = false) :
      Completes s (.fbLd payload) { s with fbits := payload.map bitOfWord } .done
  | dsssSpread (loadedI : s.lfsrI ≠ 0) (loadedQ : s.lfsrQ ≠ 0)
      (fits : overCapacity (Config.chipsPerBit * ((s.fbits.length + 1) / 2)) = false) :
      Completes s .dsssSpread
        { s with
          ichip := (spread s.fbits Config.chipsPerBit s.lfsrI s.lfsrQ).iChips
          qchip := (spread s.fbits Config.chipsPerBit s.lfsrI s.lfsrQ).qChips
          lfsrI := (spread s.fbits Config.chipsPerBit s.lfsrI s.lfsrQ).stateI
          lfsrQ := (spread s.fbits Config.chipsPerBit s.lfsrI s.lfsrQ).stateQ } .done
  | rrcTaps (configured : s.spc ≠ 0) (fits : overCapacity (2 * s.halfLength + 1) = false) :
      Completes s .rrcTaps { s with taps := storedTaps s.halfLength s.spc.toNat } .done
  | rrcShapei (configured : s.spc ≠ 0) (tapped : s.taps ≠ [])
      (fits : overCapacity (s.ichip.length * s.spc.toNat) = false) :
      Completes s .rrcShapei { s with ishp := storedShape s.ichip s.taps s.spc.toNat } .done
  | rrcShapeq (configured : s.spc ≠ 0) (tapped : s.taps ≠ [])
      (fits : overCapacity (s.qchip.length * s.spc.toNat) = false) :
      Completes s .rrcShapeq { s with qshp := storedShape s.qchip s.taps s.spc.toNat } .done
  | oqpskMod (configured : s.spc ≠ 0) (fitsTaps : overCapacity (2 * s.halfLength + 1) = false)
      (fitsI : overCapacity (s.ichip.length * s.spc.toNat) = false)
      (fitsQ : overCapacity (s.qchip.length * s.spc.toNat + offsetSamples s.spc.toNat) = false)
      (kept : peakIsZero s.ichip s.qchip s.spc.toNat = false) :
      Completes s .oqpskMod (s.writeModulation (modulate s.ichip s.qchip s.halfLength s.spc.toNat)) .done
  | bplBit {b : Operand} : Completes s (.bplBit b) (s.setOutput (modulateBit (b == 1))) .done
  | msgLdb {payload : List Word} (fits : overCapacity (8 * payload.length) = false) :
      Completes s (.msgLdb payload) { s with mbits := bitsOfBytes payload } .done
  | msgLdbits {payload : List Word} (fits : overCapacity payload.length = false) :
      Completes s (.msgLdbits payload) { s with mbits := payload.map bitOfWord } .done
  | frmBuild (fits : overCapacity (frameBits s.gen s.test s.mbits).length = false) :
      Completes s .frmBuild { s with fbits := frameBits s.gen s.test s.mbits } .done
  | asm1G (fitsBits : overCapacity (frameBits .g1 s.test s.mbits).length = false)
      (fitsOut : overCapacity (assemble1G (frameBits .g1 s.test s.mbits)).length = false) :
      Completes s .asm
        (State.setOutput { s with fbits := frameBits .g1 s.test s.mbits }
          (assemble1G (frameBits .g1 s.test s.mbits))) .done
  | asm2G {c : Spread} {m : Modulation} (message : s.mbits.length = Config.message2G)
      (fits : overCapacity (2 * s.halfLength + 1) = false) (configured : s.spc ≠ 0)
      (loadedI : s.seeds.1 ≠ 0) (loadedQ : s.seeds.2 ≠ 0) (hc : c = s.frameSpread)
      (kept : peakIsZero c.iChips c.qChips s.spc.toNat = false)
      (hm : m = modulate c.iChips c.qChips s.halfLength s.spc.toNat) :
      Completes s .asm (s.writeFrame (frameBits .g2 s.test s.mbits) c m) .done
  | pullCyclic {n : Operand} (ready : s.ready = true) (cyclic : s.cyclic = true) :
      Completes s (.pull n) { s with rdidx := BitVec.ofNat 32 ((s.rdidx.toNat + n.toNat) % s.obuf.length) }
        (.ok false ((cyclicChunk s.obuf s.rdidx.toNat n.toNat).flatMap sampleWords))
  | pullFinite {n : Operand} {next : Nat} {atEnd : Bool} (ready : s.ready = true) (finite : s.cyclic = false)
      (hnext : next = s.rdidx.toNat + min n.toNat (s.obuf.length - s.rdidx.toNat))
      (hend : atEnd = (next == s.obuf.length && !s.eos)) :
      Completes s (.pull n) { s with rdidx := BitVec.ofNat 32 next, eos := s.eos || atEnd }
        (.ok atEnd ((finiteChunk s.obuf s.rdidx.toNat n.toNat).flatMap sampleWords))
  | rewind (ready : s.ready = true) : Completes s .rewind { s with rdidx := 0, eos := false } .done
  | selfchk : Completes s .selfchk { s with res := 1 } (.ok false [1])
  | verify {a : Operand} {hi lo : Word} : Completes s (.verify a hi lo) { s with res := 1 } (.ok false [1])

/-- The effect raises an error or is a completion of the operation. -/
def Effect.RaisesOrCompletes (s : State) (i : Instr) : Effect → Prop
  | .raise _ => True
  | .finish u r => Completes s i u r

section
variable {s : State} {i : Instr} {c : Prop} [Decidable c] {k : ErrKind} {e : Effect}

theorem Effect.completes {u : State} {r : Response} (h : Completes s i u r) :
    (Effect.finish u r).RaisesOrCompletes s i := h

/-- An operation that tests before it acts raises if the test fails, and otherwise does what is left. -/
theorem Effect.test (h : ¬c → e.RaisesOrCompletes s i) : (if c then .raise k else e).RaisesOrCompletes s i := by
  split
  · exact trivial
  · exact h ‹_›

theorem Effect.accept (h : c → e.RaisesOrCompletes s i) : (if c then e else .raise k).RaisesOrCompletes s i := by
  split
  · exact h ‹_›
  · exact trivial

end

section
open Effect

theorem asm1G_raisesOrCompletes (s : State) : (asm1G s).RaisesOrCompletes s .asm := by
  unfold asm1G
  refine test fun _ => test fun fits => ?_
  obtain ⟨fitsBits, fitsOut⟩ : _ ∧ _ := by simpa using fits
  exact completes (.asm1G fitsBits fitsOut)

theorem asm2G_raisesOrCompletes (s : State) : (asm2G s).RaisesOrCompletes s .asm := by
  rw [asm2G_eq rfl rfl]
  refine test fun message => test fun fits => test fun configured => test fun loaded => test fun kept => ?_
  obtain ⟨loadedI, loadedQ⟩ := not_or.mp loaded
  exact completes (.asm2G (by simpa [messageLengthOk] using message) (eq_false_of_ne_true fits) configured loadedI
    loadedQ rfl (eq_false_of_ne_true kept) rfl)

theorem oqpskMod_raisesOrCompletes (s : State) : ∃ e : Effect, e.RaisesOrCompletes s .oqpskMod ∧
    exec .oqpskMod s = s.perform e := by
  refine ⟨_, test fun configured => test fun fits => test fun kept => ?_, execOqpskMod_eq s⟩
  obtain ⟨⟨fitsTaps, fitsI⟩, fitsQ⟩ : (_ ∧ _) ∧ _ := by simpa using fits
  exact completes (.oqpskMod configured fitsTaps fitsI fitsQ (eq_false_of_ne_true kept))

/-- The three operations that a faulted CORE accepts (60_exceptions.md R277). -/
def AcceptedWhileFaulted : Instr → Prop
  | .reset => True
  | .csrRd _ => True
  | .bufRd _ => True
  | _ => False

/-- The operations that a faulted CORE accepts are an effect run by `performAlways`. -/
theorem exec_runs_always {i : Instr} (h : AcceptedWhileFaulted i) (s : State) :
    ∃ e : Effect, e.RaisesOrCompletes s i ∧ exec i s = s.performAlways e := by
  cases i
  case reset => exact ⟨.finish s.restart .done, completes .reset, by rw [exec, execReset]⟩
  case csrRd => exact ⟨_, test fun exist => completes (.csrRd (Nat.not_lt.mp exist)), rfl⟩
  case bufRd => exact ⟨_, test fun exist => completes (.bufRd (Nat.not_lt.mp exist)), rfl⟩
  all_goals exact h.elim

/-- Every other operation is an effect run by `perform`. -/
theorem exec_runs {i : Instr} (h : ¬AcceptedWhileFaulted i) (s : State) :
    ∃ e : Effect, e.RaisesOrCompletes s i ∧ exec i s = s.perform e := by
  cases i
  case reset | csrRd | bufRd => exact absurd trivial h
  case csrWr r v =>
    exact ⟨_, test fun _ => test fun writable => test fun idle => test fun clear => test fun seed =>
      completes (.csrWr (by omega) (eq_false_of_ne_true idle) (by simpa using clear) (by simpa using seed)), rfl⟩
  case lfsrLdi => exact ⟨_, accept fun valid => completes (.lfsrLdi valid), rfl⟩
  case lfsrLdq => exact ⟨_, accept fun valid => completes (.lfsrLdq valid), rfl⟩
  case lfsrStepi => exact ⟨_, test fun loaded => completes (.lfsrStepi loaded), rfl⟩
  case lfsrStepq => exact ⟨_, test fun loaded => completes (.lfsrStepq loaded), rfl⟩
  case lfsrGeni => exact ⟨_, test fun loaded => completes (.lfsrGeni loaded), rfl⟩
  case lfsrGenq => exact ⟨_, test fun loaded => completes (.lfsrGenq loaded), rfl⟩
  case fbLd => exact ⟨_, test fun _ => test fun fits => completes (.fbLd (eq_false_of_ne_true fits)), rfl⟩
  case dsssSpread =>
    exact ⟨_, test fun loaded => test fun fits =>
      completes (.dsssSpread (not_or.mp loaded).1 (not_or.mp loaded).2 (eq_false_of_ne_true fits)), rfl⟩
  case rrcTaps =>
    exact ⟨_, test fun configured => test fun fits => completes (.rrcTaps configured (eq_false_of_ne_true fits)), rfl⟩
  case rrcShapei =>
    exact ⟨_, test fun configured => test fun tapped => test fun fits =>
      completes (.rrcShapei configured tapped (eq_false_of_ne_true fits)), rfl⟩
  case rrcShapeq =>
    exact ⟨_, test fun configured => test fun tapped => test fun fits =>
      completes (.rrcShapeq configured tapped (eq_false_of_ne_true fits)), rfl⟩
  case oqpskMod => exact oqpskMod_raisesOrCompletes s
  case bplBit => exact ⟨_, test fun _ => completes .bplBit, rfl⟩
  case msgLdb => exact ⟨_, test fun _ => test fun fits => completes (.msgLdb (eq_false_of_ne_true fits)), rfl⟩
  case msgLdbits => exact ⟨_, test fun _ => test fun fits => completes (.msgLdbits (eq_false_of_ne_true fits)), rfl⟩
  case frmBuild => exact ⟨_, test fun _ => test fun fits => completes (.frmBuild (eq_false_of_ne_true fits)), rfl⟩
  case asm =>
    refine ⟨_, ?_, rfl⟩
    split
    · exact asm1G_raisesOrCompletes s
    · exact asm2G_raisesOrCompletes s
  case pull =>
    refine ⟨_, test fun ready => ?_, rfl⟩
    split
    next cyclic => exact completes (.pullCyclic (eq_true_of_ne_false ready) cyclic)
    next finite => exact completes (.pullFinite (eq_true_of_ne_false ready) (eq_false_of_ne_true finite) rfl rfl)
  case rewind => exact ⟨_, test fun ready => completes (.rewind (eq_true_of_ne_false ready)), rfl⟩
  case selfchk =>
    rw [exec, execSelfchk]
    exact ⟨_, test fun _ => completes .selfchk, rfl⟩
  case verify => exact ⟨_, test fun _ => test fun _ => completes .verify, rfl⟩

end

/-! ### What every operation does -/

/-- Everything an operation can do: answer an error and leave a faulted CORE as it is, enter the error it raises, or
complete; only three complete while faulted (60_exceptions.md R275, R277). -/
theorem exec_cases {i : Instr} {s t : State} (h : exec i s = .next t) :
    (s.err ≠ none ∧ ∃ k, t = s.respond (.error k)) ∨
      (s.err = none ∧ ∃ k, t = s.enterError k) ∨
      (∃ u r, Completes s i u r ∧ (s.err = none ∨ AcceptedWhileFaulted i) ∧ t = u.respond r) := by
  by_cases accepted : AcceptedWhileFaulted i
  · obtain ⟨e, he, ran⟩ := exec_runs_always accepted s
    obtain ⟨j, k, hj, -, rfl⟩ | ⟨hn, k, -, rfl⟩ | ⟨u, r, rfl, rfl⟩ := State.performAlways_cases (ran.symm.trans h)
    · exact .inl ⟨Option.ne_none_iff_exists'.mpr ⟨j, hj⟩, k, rfl⟩
    · exact .inr (.inl ⟨hn, k, rfl⟩)
    · exact .inr (.inr ⟨u, r, he, .inr accepted, rfl⟩)
  · obtain ⟨e, he, ran⟩ := exec_runs accepted s
    obtain ⟨k, hk, rfl⟩ | ⟨hn, k, -, rfl⟩ | ⟨hn, u, r, rfl, rfl⟩ := State.perform_cases (ran.symm.trans h)
    · exact .inl ⟨Option.ne_none_iff_exists'.mpr ⟨k, hk⟩, k, rfl⟩
    · exact .inr (.inl ⟨hn, k, rfl⟩)
    · exact .inr (.inr ⟨u, r, he, .inl hn, rfl⟩)

/-- While faulted, every operation that is not accepted is refused with the latched kind (60_exceptions.md R277). -/
theorem exec_of_err {i : Instr} {s : State} {k : ErrKind} (h : ¬AcceptedWhileFaulted i) (he : s.err = some k) :
    exec i s = .next (s.respond (.error k)) := by
  obtain ⟨e, -, ran⟩ := exec_runs h s
  rw [ran, State.perform_of_err he]

/-! ### What a completing operation leaves unchanged -/

section
variable (r : Nat) (v : Word) (s : State)

@[simp] theorem csrWrite_ready : (csrWrite r v s).ready = s.ready := by unfold csrWrite; split <;> rfl
@[simp] theorem csrWrite_obuf : (csrWrite r v s).obuf = s.obuf := by unfold csrWrite; split <;> rfl
@[simp] theorem csrWrite_res : (csrWrite r v s).res = s.res := by unfold csrWrite; split <;> rfl
@[simp] theorem csrWrite_lfsrI : (csrWrite r v s).lfsrI = s.lfsrI := by unfold csrWrite; split <;> rfl
@[simp] theorem csrWrite_lfsrQ : (csrWrite r v s).lfsrQ = s.lfsrQ := by unfold csrWrite; split <;> rfl

end

@[simp] theorem State.writeFrame_lfsrI (s : State) (fb : List Bool) (c : Spread) (m : Modulation) :
    (s.writeFrame fb c m).lfsrI = c.stateI := rfl

@[simp] theorem State.writeFrame_lfsrQ (s : State) (fb : List Bool) (c : Spread) (m : Modulation) :
    (s.writeFrame fb c m).lfsrQ = c.stateQ := rfl

/-- A valid seed operand holds a non-zero seed (40_lfsr.md R137). -/
theorem seedOf_ne_zero {a : Operand} (ha : seedInRange a = true) : seedOf a ≠ 0 := by
  obtain ⟨hpos, hlt⟩ := (seedInRange_iff a).mp ha
  rw [seedOf, ne_eq, ← BitVec.toNat_inj, BitVec.toNat_setWidth, Nat.mod_eq_of_lt hlt]
  exact hpos.ne'

/-- The three operations that write the output (10_state.md R25, R37). -/
def WritesOutput (i : Instr) : Prop := i = .asm ∨ i = .oqpskMod ∨ ∃ b, i = .bplBit b

theorem WritesOutput.not_accepted {i : Instr} (h : WritesOutput i) : ¬AcceptedWhileFaulted i := by
  obtain rfl | rfl | ⟨b, rfl⟩ := h <;> exact id

/-- The operations that return a scalar (10_state.md R23). -/
def ReturnsScalar (i : Instr) : Prop :=
  i = .lfsrStepi ∨ i = .lfsrStepq ∨ (∃ r, i = .csrRd r) ∨ i = .selfchk ∨ ∃ a hi lo, i = .verify a hi lo

section
variable {s u : State} {i : Instr} {r : Response} (h : Completes s i u r)
include h

theorem Completes.err_eq (hi : i ≠ .reset) : u.err = s.err := by
  cases h
  case reset => exact absurd rfl hi
  case csrWr => exact csrWrite_err _ _ s
  all_goals rfl

theorem Completes.output : WritesOutput i ∨ i = .reset ∨ (u.ready = s.ready ∧ u.obuf = s.obuf) := by
  cases h
  case asm1G | asm2G => exact .inl (.inl rfl)
  case oqpskMod => exact .inl (.inr (.inl rfl))
  case bplBit b => exact .inl (.inr (.inr ⟨b, rfl⟩))
  case reset => exact .inr (.inl rfl)
  case csrWr => exact .inr (.inr ⟨csrWrite_ready _ _ s, csrWrite_obuf _ _ s⟩)
  all_goals exact .inr (.inr ⟨rfl, rfl⟩)

theorem Completes.res : u.res = s.res ∨ (i = .reset ∧ u.res = 0) ∨ (ReturnsScalar i ∧ r = .ok false [u.res]) := by
  cases h
  case reset => exact .inr (.inl ⟨rfl, rfl⟩)
  case lfsrStepi => exact .inr (.inr ⟨.inl rfl, rfl⟩)
  case lfsrStepq => exact .inr (.inr ⟨.inr (.inl rfl), rfl⟩)
  case csrRd r _ => exact .inr (.inr ⟨.inr (.inr (.inl ⟨r, rfl⟩)), rfl⟩)
  case selfchk => exact .inr (.inr ⟨.inr (.inr (.inr (.inl rfl))), rfl⟩)
  case verify a hi lo => exact .inr (.inr ⟨.inr (.inr (.inr (.inr ⟨a, hi, lo, rfl⟩))), rfl⟩)
  case csrWr => exact .inl (csrWrite_res _ _ s)
  all_goals exact .inl rfl

/-- The operation that signals the end of the stream is a `PULL` in finite playback that reaches it (45_frame.md R227;
60_exceptions.md R280). -/
theorem Completes.endOfStream {data : List Word} (hr : r = .ok true data) :
    (∃ n, i = .pull n) ∧ s.ready = true ∧ s.cyclic = false ∧ s.eos = false ∧ u.eos = true ∧
      u.rdidx = BitVec.ofNat 32 s.obuf.length := by
  cases h
  case pullFinite n next atEnd ready finite _ hend =>
    obtain ⟨rfl, -⟩ := Response.ok.inj hr
    obtain ⟨rfl, first⟩ : next = s.obuf.length ∧ s.eos = false := by simpa using hend.symm
    exact ⟨⟨n, rfl⟩, ready, finite, first, Bool.or_true _, rfl⟩
  all_goals exact nomatch hr

/-- A register is loaded with a valid seed or advanced from a non-zero state (40_lfsr.md R134, R136, R137). -/
theorem Completes.lfsr_ne_zero (hi : i ≠ .reset) :
    (s.lfsrI ≠ 0 → u.lfsrI ≠ 0) ∧ (s.lfsrQ ≠ 0 → u.lfsrQ ≠ 0) := by
  cases h
  case reset => exact absurd rfl hi
  case csrWr => simp
  case lfsrLdi valid => exact ⟨fun _ => seedOf_ne_zero valid, id⟩
  case lfsrLdq valid => exact ⟨id, fun _ => seedOf_ne_zero valid⟩
  case lfsrStepi => exact ⟨mt (advance_eq_zero_iff _).mp, id⟩
  case lfsrStepq => exact ⟨id, mt (advance_eq_zero_iff _).mp⟩
  case lfsrGeni =>
    rw [generateSequence_eq]
    exact ⟨fun loaded => stateAfter_ne_zero loaded _, id⟩
  case lfsrGenq =>
    rw [generateSequence_eq]
    exact ⟨id, fun loaded => stateAfter_ne_zero loaded _⟩
  case dsssSpread =>
    rw [spread_stateI, spread_stateQ]
    exact ⟨fun loaded => stateAfter_ne_zero loaded _, fun loaded => stateAfter_ne_zero loaded _⟩
  case asm2G loadedI loadedQ hc _ _ =>
    rw [State.writeFrame_lfsrI, State.writeFrame_lfsrQ, hc, State.frameSpread, spread_stateI, spread_stateQ]
    exact ⟨fun _ => stateAfter_ne_zero loadedI _, fun _ => stateAfter_ne_zero loadedQ _⟩
  all_goals exact ⟨id, id⟩

end

/-! ### The response ports -/

/-- The same CORE with other words on its two ports. -/
def State.withPorts (s : State) (port : List Word) (resp : Option Response) : State :=
  { s with port := port, resp := resp }

/-- The same effect in a CORE with other words on its ports. -/
def Effect.withPorts (port : List Word) (resp : Option Response) : Effect → Effect
  | .raise k => .raise k
  | .finish t r => .finish (t.withPorts port resp) r

section
variable (port : List Word) (resp : Option Response)

@[simp] theorem Effect.withPorts_raise (k : ErrKind) : (Effect.raise k).withPorts port resp = .raise k := rfl

@[simp] theorem Effect.withPorts_finish (t : State) (r : Response) :
    (Effect.finish t r).withPorts port resp = .finish (t.withPorts port resp) r := rfl

@[simp] theorem Effect.withPorts_ite (c : Prop) [Decidable c] (e f : Effect) :
    (if c then e else f).withPorts port resp = if c then e.withPorts port resp else f.withPorts port resp :=
  apply_ite _ _ _ _

theorem State.perform_withPorts {s t : State} {e : Effect} (h : s.perform e = .next t) :
    (s.withPorts port resp).perform (e.withPorts port resp) = .next { t with port := port } := by
  obtain ⟨k, hk, rfl⟩ | ⟨he, k, rfl, rfl⟩ | ⟨he, u, r, rfl, rfl⟩ := State.perform_cases h
  · exact State.perform_of_err (s := s.withPorts port resp) hk _
  · exact State.perform_raise (s := s.withPorts port resp) he k
  · exact State.perform_finish (s := s.withPorts port resp) he _ r

theorem State.performAlways_withPorts {s t : State} {e : Effect} (h : s.performAlways e = .next t) :
    (s.withPorts port resp).performAlways (e.withPorts port resp) = .next { t with port := port } := by
  obtain ⟨j, k, hj, rfl, rfl⟩ | ⟨he, k, rfl, rfl⟩ | ⟨u, r, rfl, rfl⟩ := State.performAlways_cases h
  · exact State.performAlways_raise_of_err (s := s.withPorts port resp) hj k
  · exact State.performAlways_raise (s := s.withPorts port resp) he k
  · exact State.performAlways_finish (s.withPorts port resp) _ r

theorem csrWrite_withPorts (r : Nat) (v : Word) (s : State) :
    csrWrite r v (s.withPorts port resp) = (csrWrite r v s).withPorts port resp := by
  unfold csrWrite
  split <;> rfl

theorem asm1G_withPorts (s : State) : asm1G (s.withPorts port resp) = (asm1G s).withPorts port resp := by
  simp only [asm1G, Effect.withPorts_ite]
  rfl

theorem State.writeFrame_withPorts (s : State) (fb : List Bool) (c : Spread) (m : Modulation) :
    (s.withPorts port resp).writeFrame fb c m = (s.writeFrame fb c m).withPorts port resp := rfl

theorem asm2G_withPorts (s : State) : asm2G (s.withPorts port resp) = (asm2G s).withPorts port resp := by
  obtain ⟨c, hc⟩ : ∃ c, c = s.frameSpread := ⟨_, rfl⟩
  obtain ⟨m, hm⟩ : ∃ m, m = modulate c.iChips c.qChips s.halfLength s.spc.toNat := ⟨_, rfl⟩
  have hc' : c = (s.withPorts port resp).frameSpread := hc
  rw [asm2G_eq hc hm, asm2G_eq (s := s.withPorts port resp) hc' hm]
  simp only [Effect.withPorts_ite, Effect.withPorts_raise, Effect.withPorts_finish, State.writeFrame_withPorts]
  rfl

theorem execAsm_withPorts {s t : State} (h : execAsm s = .next t) :
    execAsm (s.withPorts port resp) = .next { t with port := port } := by
  have ran := State.perform_withPorts port resp h
  rw [execAsm, asm1G_withPorts, asm2G_withPorts]
  change (s.withPorts port resp).perform (match s.gen with | .g1 => _ | .g2 => _) = _
  cases hg : s.gen <;> rw [hg] at ran <;> exact ran

/-- Every operation tests and computes from CORE's own state: other words on the ports stay where they are and change
nothing else (20_memory.md R70). -/
theorem exec_withPorts {i : Instr} {s t : State} (h : exec i s = .next t) :
    exec i (s.withPorts port resp) = .next { t with port := port } := by
  cases i
  case reset =>
    rw [exec, execReset] at h
    exact State.performAlways_withPorts port resp h
  case csrWr r v =>
    have ran := State.perform_withPorts port resp h
    simp only [Effect.withPorts_ite, Effect.withPorts_finish, ← csrWrite_withPorts] at ran
    exact ran
  case csrRd | bufRd =>
    have ran := State.performAlways_withPorts port resp h
    rw [Effect.withPorts_ite] at ran
    exact ran
  case asm =>
    exact execAsm_withPorts port resp h
  case selfchk =>
    rw [exec, execSelfchk] at h ⊢
    have ran := State.perform_withPorts port resp h
    rw [Effect.withPorts_ite] at ran
    exact ran
  case pull =>
    have ran := State.perform_withPorts port resp h
    simp only [Effect.withPorts_ite, pullCyclic, pullFinite, Effect.withPorts_finish] at ran
    exact ran
  all_goals
    have ran := State.perform_withPorts port resp h
    simp only [Effect.withPorts_ite] at ran
    exact ran

end

/-! ### The operations that a faulted CORE accepts -/

theorem not_acceptedWhileFaulted {i : Instr} (hreset : i ≠ .reset) (hcsr : ∀ r, i ≠ .csrRd r)
    (hbuf : ∀ sel, i ≠ .bufRd sel) : ¬AcceptedWhileFaulted i := by
  cases i
  case reset => exact absurd rfl hreset
  case csrRd r => exact absurd rfl (hcsr r)
  case bufRd sel => exact absurd rfl (hbuf sel)
  all_goals exact id

theorem exec_bufRd {sel : Operand} (h : sel.toNat ≤ 7) (s : State) :
    exec (.bufRd sel) s =
      .next (s.respond (.ok false (lengthWord (bufferLength sel.toNat s) :: bufferElements sel.toNat s))) := by
  rw [exec, execBufRd, if_neg (Nat.not_lt.mpr h), State.performAlways_finish]

theorem exec_bufRd_reserved {sel : Operand} (h : 7 < sel.toNat) (s : State) :
    exec (.bufRd sel) s = s.performAlways (.raise .invalidInput) := by
  rw [exec, execBufRd, if_pos h]

/-! ### The obligations -/

/-- Settles O15. -/
theorem faultedCoreRefusesAllButThreeOperations : Obligations.FaultedCoreRefusesAllButThreeOperations := by
  intro i s k he
  refine ⟨fun hreset hcsr hbuf => exec_of_err (not_acceptedWhileFaulted hreset hcsr hbuf) he,
    ⟨_, exec_reset s, rfl⟩, fun r hr => ⟨_, exec_csrRd hr s⟩, fun r hr => ?_, fun sel hsel => ⟨_, exec_bufRd hsel s⟩,
    fun sel hsel => ?_⟩
  · rw [exec_csrRd_reserved hr, State.performAlways_raise_of_err he]
    rfl
  · rw [exec_bufRd_reserved hsel, State.performAlways_raise_of_err he]
    rfl

/-- Settles O16: an answered error leaves `READY` and `ERR`, an error entered clears `READY`, and of the operations that
complete only the three write the output and only `RESET` clears `ERR`. -/
theorem onlyThreeOperationsMakeCoreReady : Obligations.OnlyThreeOperationsMakeCoreReady := by
  intro i s t h
  obtain ⟨faulted, k, rfl⟩ | ⟨-, k, rfl⟩ | ⟨u, r, done, run, rfl⟩ := exec_cases h
  · exact ⟨fun idle ready => absurd (idle.symm.trans ready) nofun, fun _ he => absurd he faulted⟩
  · exact ⟨fun _ ready => (nomatch ready), fun _ he => (nomatch he)⟩
  · refine ⟨fun idle ready => ?_, fun faulted he => ?_⟩
    · obtain writes | rfl | ⟨hready, -⟩ := done.output
      · exact ⟨run.resolve_right writes.not_accepted, writes⟩
      · cases done
        exact nomatch ready
      · exact absurd (idle.symm.trans (hready.symm.trans ready)) nofun
    · by_contra hi
      exact faulted ((done.err_eq hi).symm.trans he)

/-- Settles O17. -/
theorem outputBufferIsWrittenByThreeOperationsOnly : Obligations.OutputBufferIsWrittenByThreeOperationsOnly := by
  intro i s t h changed
  obtain ⟨-, k, rfl⟩ | ⟨he, k, rfl⟩ | ⟨u, r, done, -, rfl⟩ := exec_cases h
  · exact absurd rfl changed
  · exact .inr (.inr (.inr (.inr ⟨he, Option.some_ne_none k⟩)))
  · obtain (hi | hi | hi) | hi | ⟨-, same⟩ := done.output
    · exact .inl hi
    · exact .inr (.inl hi)
    · exact .inr (.inr (.inl hi))
    · exact .inr (.inr (.inr (.inl hi)))
    · exact absurd same changed

/-- Settles O18. -/
theorem resultRegisterHoldsTheScalarReturned : Obligations.ResultRegisterHoldsTheScalarReturned := by
  intro i s t h changed
  obtain ⟨-, k, rfl⟩ | ⟨-, k, rfl⟩ | ⟨u, r, done, -, rfl⟩ := exec_cases h
  · exact absurd rfl changed
  · exact absurd rfl changed
  · obtain same | reset | ⟨scalar, rfl⟩ := done.res
    · exact absurd same changed
    · exact .inl reset
    · exact .inr ⟨scalar, rfl⟩

/-- Settles O19: an error's response has no end-of-stream event; the invariant is used for the size of the output. -/
theorem endOfStreamIsRaisedOnlyByTheLastPull : Obligations.EndOfStreamIsRaisedOnlyByTheLastPull := by
  intro i s t data inv h raised
  obtain ⟨-, k, rfl⟩ | ⟨-, k, rfl⟩ | ⟨u, r, done, -, rfl⟩ := exec_cases h
  · exact nomatch raised
  · exact nomatch raised
  · obtain ⟨hi, ready, finite, first, ended, hidx⟩ := done.endOfStream (Option.some.inj raised)
    obtain ⟨-, -, -, -, -, -, -, fits⟩ := inv.fit
    refine ⟨hi, ready, finite, first, ended, ?_⟩
    rw [State.respond_rdidx, hidx, BitVec.toNat_ofNat]
    exact Nat.mod_eq_of_lt fits

/-- Settles O20. -/
theorem effectDependsOnStateAndOperandsOnly : Obligations.EffectDependsOnStateAndOperandsOnly := by
  refine ⟨fun e data => by cases e <;> rfl, rfl, rfl, rfl, rfl, fun i s t port resp h => ?_⟩
  refine ⟨exec_port h, ?_, exec_withPorts port resp h⟩
  obtain ⟨-, k, rfl⟩ | ⟨-, k, rfl⟩ | ⟨u, r, -, -, rfl⟩ := exec_cases h
  · exact ⟨.error k, rfl⟩
  · exact ⟨.error k, rfl⟩
  · exact ⟨r, rfl⟩

/-- Settles O35. -/
theorem loadedLfsrNeverBecomesZero : Obligations.LoadedLfsrNeverBecomesZero := by
  intro i s t h hi
  obtain ⟨-, k, rfl⟩ | ⟨-, k, rfl⟩ | ⟨u, r, done, -, rfl⟩ := exec_cases h
  · exact ⟨id, id⟩
  · exact ⟨id, id⟩
  · exact done.lfsr_ne_zero hi

end Sys2Proof.Machine
end

section
/-! PROOFS for 10_state.md: the invariant of CORE's state at reset and under each shared operation and each completing
operation, and from these O12 and O13. -/

namespace Sys2Proof.Machine

/-! ### Reset, responses and errors -/

theorem capacity_pos : 0 < Config.capacity := Nat.two_pow_pos 32

/-- A count operand is below the capacity (10_state.md R39; 30_encoding.md R101). -/
theorem capacity_gt_payload : 2 ^ 24 < Config.capacity := by decide

/-- The state after reset, whatever waits on the port (10_state.md R41). -/
theorem State.restart_inv (s : State) : s.restart.Inv where
  ready_iff := ⟨nofun, fun h => absurd rfl h⟩
  idle _ := ⟨rfl, rfl⟩
  faulted _ := rfl
  rdidx_le := Nat.le_refl 0
  cyclic := nofun
  finite := nofun
  peak := nofun
  taps h := absurd rfl h
  fit := ⟨capacity_pos, capacity_pos, capacity_pos, capacity_pos, capacity_pos, capacity_pos, capacity_pos,
    capacity_pos⟩
  seed := by rw [s.restart_seedIN]; decide

section
variable {s : State} (inv : s.Inv)
include inv

/-- The invariant is about CORE's own state, not about the ports and the reset input. -/
theorem State.Inv.withPorts (port : List Word) (resp : Option Response) (resetIn : Bool) :
    State.Inv { s with port := port, resp := resp, resetIn := resetIn } :=
  { inv with }

theorem State.Inv.respond (r : Response) : (s.respond r).Inv := inv.withPorts s.port (some r) s.resetIn

/-- No output survives an error (60_exceptions.md R275, R279). -/
theorem State.Inv.enterError (k : ErrKind) : (s.enterError k).Inv :=
  { inv with
    ready_iff := ⟨nofun, fun h => absurd rfl h⟩
    idle := fun _ => ⟨rfl, rfl⟩
    faulted := fun _ => rfl
    rdidx_le := Nat.le_refl 0
    cyclic := nofun
    finite := nofun
    peak := nofun
    fit := by
      obtain ⟨htaps, hm, hf, hi, hq, his, hqs, -⟩ := inv.fit
      exact ⟨htaps, hm, hf, hi, hq, his, hqs, capacity_pos⟩ }

/-! ### Writing an output -/

/-- A complete output starts a new playback (10_state.md R24, R25). -/
theorem State.Inv.setOutput {out : List Sample} (he : s.err = none) (nonempty : out ≠ []) (peak : unitPeak out = true)
    (fits : out.length < Config.capacity) : (s.setOutput out).Inv :=
  { inv with
    ready_iff := ⟨fun _ => nonempty, fun _ => rfl⟩
    idle := nofun
    faulted := fun h => absurd he h
    rdidx_le := Nat.zero_le _
    cyclic := fun _ _ => ⟨List.length_pos_iff.mpr nonempty, rfl⟩
    finite := fun _ _ => ⟨fun h => absurd h.symm (List.length_pos_iff.mpr nonempty).ne', nofun⟩
    peak := fun _ => peak
    fit := by
      obtain ⟨htaps, hm, hf, hi, hq, his, hqs, -⟩ := inv.fit
      exact ⟨htaps, hm, hf, hi, hq, his, hqs, fits⟩ }

/-- The output of a modulation of which samples are kept (43_oqpsk.md R190, R192). -/
theorem State.Inv.writeModulation {ic qc : List Chip} {m : Modulation} (he : s.err = none) (configured : s.spc ≠ 0)
    (fitsTaps : overCapacity (2 * s.halfLength + 1) = false) (fitsI : ic.length * s.spc.toNat < 2 ^ 32)
    (fitsQ : qc.length * s.spc.toNat < 2 ^ 32) (kept : peakIsZero ic qc s.spc.toNat = false)
    (hm : m = modulate ic qc s.halfLength s.spc.toNat) : (s.writeModulation m).Inv := by
  subst hm
  have some : 0 < keptLength ic.length qc.length s.spc.toNat := Nat.pos_of_ne_zero (by simpa [peakIsZero] using kept)
  have length := modulate_out_length (H := s.halfLength) some
  have shorter : keptLength ic.length qc.length s.spc.toNat ≤ ic.length * s.spc.toNat := Nat.min_le_left _ _
  obtain ⟨-, hmb, hfb, hi, hq, -, -, hob⟩ := inv.fit
  have written : State.Inv { s with
      taps := (modulate ic qc s.halfLength s.spc.toNat).taps
      ishp := (modulate ic qc s.halfLength s.spc.toNat).iSig
      qshp := (modulate ic qc s.halfLength s.spc.toNat).qSig } :=
    { inv with
      taps := fun _ => ⟨configured, storedTaps_length _ _, unitEnergy_storedTaps _ _⟩
      fit := by
        refine ⟨?_, hmb, hfb, hi, hq, ?_, ?_, hob⟩
        · exact (storedTaps_length _ _).trans_lt (overCapacity_eq_false.mp fitsTaps)
        · exact (storedShape_length _ _ _).trans_lt fitsI
        · exact (storedShape_length _ _ _).trans_lt fitsQ }
  exact written.setOutput he (List.ne_nil_of_length_pos (length ▸ some)) (unitPeak_storedOutput _ _)
    (length ▸ shorter.trans_lt fitsI)

end

/-! ### The Biphase-L outputs -/

theorem all_magAtMostOne_modulateBit (b : Bool) : (modulateBit b).all magAtMostOne = true := by
  cases b <;> simp [modulateBit, Config.halfBit, magAtMostOne_phasePlus, magAtMostOne_phaseMinus]

theorem any_magAtLeastOne_modulateBit (b : Bool) : (modulateBit b).any magAtLeastOne = true := by
  cases b <;> simp [modulateBit, Config.halfBit, magAtLeastOne_phasePlus]

theorem modulateBit_length (b : Bool) : (modulateBit b).length = 16 := by cases b <;> rfl

/-- The two phases have magnitude 1 within the stated tolerance (10_state.md R38; 44_biphase.md R201). -/
theorem unitPeak_modulateBit (b : Bool) : unitPeak (modulateBit b) = true := by
  rw [unitPeak, all_magAtMostOne_modulateBit, any_magAtLeastOne_modulateBit, Bool.and_self]

/-- So has the carrier (10_state.md R38; 45_frame.md R218). -/
theorem unitPeak_assemble1G (fb : List Bool) : unitPeak (assemble1G fb) = true := by
  have some : Config.carrierSamples ≠ 0 := by decide
  simp [unitPeak, assemble1G, some, magAtMostOne_carrier, magAtLeastOne_carrier, List.all_flatMap,
    all_magAtMostOne_modulateBit]

theorem assemble1G_ne_nil (fb : List Bool) : assemble1G fb ≠ [] := by
  have some : Config.carrierSamples ≠ 0 := by decide
  simp [assemble1G, some]

/-! ### Writing a register -/

/-- A register is written only while no output is held; a write to `SPC` or `SPAN` empties the taps (46_system.md
R252). -/
theorem State.Inv.csrWrite {s : State} (inv : s.Inv) (idle : s.ready = false) {r : Nat} {v : Word} (writable : r ≤ 6)
    (seed : isSeedCsr r = true → seedWordInRange v = true) : (csrWrite r v s).Inv := by
  obtain ⟨-, hm, hf, hi, hq, his, hqs, hob⟩ := inv.fit
  match r, writable with
  | 0, _ =>
    exact { inv with
      cyclic := fun ready => absurd (idle.symm.trans ready) nofun
      finite := fun ready => absurd (idle.symm.trans ready) nofun }
  | 1, _ => exact { inv with taps := fun h => absurd rfl h, fit := ⟨capacity_pos, hm, hf, hi, hq, his, hqs, hob⟩ }
  | 2, _ => exact { inv with taps := fun h => absurd rfl h, fit := ⟨capacity_pos, hm, hf, hi, hq, his, hqs, hob⟩ }
  | 3, _ =>
    obtain ⟨hpos, hlt⟩ := (seedWordInRange_iff v).mp (seed rfl)
    refine { inv with seed := ?_ }
    change v.setWidth 23 ≠ 0
    rw [ne_eq, ← BitVec.toNat_inj, BitVec.toNat_setWidth, Nat.mod_eq_of_lt hlt]
    exact hpos.ne'
  | 4, _ => exact { inv with }
  | 5, _ => exact { inv with }
  | 6, _ => exact { inv with }

/-! ### Playback -/

/-- An index within the output fits its register (10_state.md R24, R39). -/
theorem State.Inv.toNat_index {s : State} (inv : s.Inv) {n : Nat} (inside : n ≤ s.obuf.length) :
    (BitVec.ofNat 32 n).toNat = n := by
  obtain ⟨-, -, -, -, -, -, -, fits⟩ := inv.fit
  rw [BitVec.toNat_ofNat]
  exact Nat.mod_eq_of_lt (inside.trans_lt fits)

section
variable {s : State} (inv : s.Inv) (ready : s.ready = true)
include inv ready

theorem State.Inv.obuf_length_pos : 0 < s.obuf.length := List.length_pos_iff.mpr (inv.ready_iff.mp ready)

/-- What playback may change: the index within the output, and `EOS` with it (10_state.md R24, R25). -/
theorem State.Inv.playback {index : BitVec 32} {eos : Bool} (inside : index.toNat ≤ s.obuf.length)
    (cyclic : s.cyclic = true → index.toNat < s.obuf.length ∧ eos = false)
    (finite : s.cyclic = false → (index.toNat = s.obuf.length ↔ eos = true)) :
    State.Inv { s with rdidx := index, eos := eos } :=
  { inv with
    idle := fun idle => absurd (idle.symm.trans ready) nofun
    rdidx_le := inside
    cyclic := fun _ => cyclic
    finite := fun _ => finite }

/-- The index stays below the end, where it wraps (45_frame.md R226). -/
theorem State.Inv.pullCyclic (cyclic : s.cyclic = true) (n : Nat) :
    State.Inv { s with rdidx := BitVec.ofNat 32 ((s.rdidx.toNat + n) % s.obuf.length) } := by
  have inside : (s.rdidx.toNat + n) % s.obuf.length < s.obuf.length := Nat.mod_lt _ (inv.obuf_length_pos ready)
  have index := inv.toNat_index inside.le
  refine inv.playback ready (index.trans_le inside.le) (fun _ => ⟨index.trans_lt inside, ?_⟩) fun finite => ?_
  · exact (inv.cyclic ready cyclic).2
  · exact absurd (finite.symm.trans cyclic) nofun

/-- `EOS` is set by the chunk that takes the index to the end (45_frame.md R227). -/
theorem State.Inv.pullFinite (finite : s.cyclic = false) {n next : Nat} {atEnd : Bool}
    (hnext : next = s.rdidx.toNat + min n (s.obuf.length - s.rdidx.toNat))
    (hend : atEnd = (next == s.obuf.length && !s.eos)) :
    State.Inv { s with rdidx := BitVec.ofNat 32 next, eos := s.eos || atEnd } := by
  have start := inv.rdidx_le
  have inside : next ≤ s.obuf.length := by omega
  have index := inv.toNat_index inside
  refine inv.playback ready (index.trans_le inside) (fun cyclic => absurd (finite.symm.trans cyclic) nofun) fun _ => ?_
  rw [index]
  cases he : s.eos with
  | true =>
    have ended : s.rdidx.toNat = s.obuf.length := (inv.finite ready finite).mpr he
    simp only [Bool.true_or, iff_true]
    omega
  | false => simp [hend, he]

theorem State.Inv.rewind : State.Inv { s with rdidx := 0, eos := false } :=
  have pos := inv.obuf_length_pos ready
  inv.playback ready (Nat.zero_le _) (fun _ => ⟨pos, rfl⟩) fun _ => ⟨fun h => absurd h pos.ne, nofun⟩

end

/-! ### A completing operation -/

theorem frameBits_g2_length {m : List Bool} (message : m.length = Config.message2G) (test : Bool) :
    (frameBits .g2 test m).length = 300 := by
  rw [frameBits, List.length_append, List.length_replicate, message]
  rfl

/-- The two channels of a 2G frame have 38400 chips each (45_frame.md R219). -/
theorem State.frameSpread_length {s : State} (message : s.mbits.length = Config.message2G) :
    s.frameSpread.iChips.length = 38400 ∧ s.frameSpread.qChips.length = 38400 := by
  rw [State.frameSpread, spread_iChips_length, spread_qChips_length, frameBits_g2_length message]
  exact ⟨rfl, rfl⟩

theorem Completes.inv {s u : State} {i : Instr} {r : Response} (h : Completes s i u r) (inv : s.Inv)
    (run : s.err = none ∨ AcceptedWhileFaulted i) : u.Inv := by
  obtain ⟨ht, hm, hf, hi, hq, his, hqs, hob⟩ := inv.fit
  cases h
  case reset => exact s.restart_inv
  case csrWr writable idle _ seed => exact inv.csrWrite idle writable seed
  case csrRd | lfsrLdi | lfsrLdq | lfsrStepi | lfsrStepq | selfchk | verify => exact { inv with }
  case bufRd => exact inv
  -- A buffer is replaced.
  case lfsrGeni n _ =>
    have fits := (generateSequence_length s.lfsrI n.toNat).trans_lt (n.isLt.trans capacity_gt_payload)
    exact { inv with fit := ⟨ht, hm, hf, fits, hq, his, hqs, hob⟩ }
  case lfsrGenq n _ =>
    have fits := (generateSequence_length s.lfsrQ n.toNat).trans_lt (n.isLt.trans capacity_gt_payload)
    exact { inv with fit := ⟨ht, hm, hf, hi, fits, his, hqs, hob⟩ }
  case fbLd fits =>
    exact { inv with
      fit := ⟨ht, hm, (List.length_map _).trans_lt (overCapacity_eq_false.mp fits), hi, hq, his, hqs, hob⟩ }
  case msgLdb fits =>
    exact { inv with
      fit := ⟨ht, (bitsOfBytes_length _).trans_lt (overCapacity_eq_false.mp fits), hf, hi, hq, his, hqs, hob⟩ }
  case msgLdbits fits =>
    exact { inv with
      fit := ⟨ht, (List.length_map _).trans_lt (overCapacity_eq_false.mp fits), hf, hi, hq, his, hqs, hob⟩ }
  case frmBuild fits => exact { inv with fit := ⟨ht, hm, overCapacity_eq_false.mp fits, hi, hq, his, hqs, hob⟩ }
  case dsssSpread fits =>
    have fitsI := (spread_iChips_length s.fbits Config.chipsPerBit s.lfsrI s.lfsrQ).trans_lt
      (overCapacity_eq_false.mp fits)
    have fitsQ := (spread_qChips_length s.fbits Config.chipsPerBit s.lfsrI s.lfsrQ).trans_lt
      ((Nat.mul_le_mul_left _ (by omega)).trans_lt (overCapacity_eq_false.mp fits))
    exact { inv with fit := ⟨ht, hm, hf, fitsI, fitsQ, his, hqs, hob⟩ }
  case rrcTaps configured fits =>
    exact { inv with
      taps := fun _ => ⟨configured, storedTaps_length _ _, unitEnergy_storedTaps _ _⟩
      fit := ⟨(storedTaps_length _ _).trans_lt (overCapacity_eq_false.mp fits), hm, hf, hi, hq, his, hqs, hob⟩ }
  case rrcShapei fits =>
    exact { inv with
      fit := ⟨ht, hm, hf, hi, hq, (storedShape_length _ _ _).trans_lt (overCapacity_eq_false.mp fits), hqs, hob⟩ }
  case rrcShapeq fits =>
    exact { inv with
      fit := ⟨ht, hm, hf, hi, hq, his, (storedShape_length _ _ _).trans_lt (overCapacity_eq_false.mp fits), hob⟩ }
  -- An output is written.
  case bplBit b =>
    have length := modulateBit_length (b == 1)
    exact inv.setOutput (run.resolve_right id) (List.ne_nil_of_length_pos (by omega)) (unitPeak_modulateBit _)
      (length.trans_lt (by decide))
  case oqpskMod configured fitsTaps fitsI fitsQ kept =>
    exact inv.writeModulation (run.resolve_right id) configured fitsTaps (overCapacity_eq_false.mp fitsI)
      ((Nat.le_add_right _ _).trans_lt (overCapacity_eq_false.mp fitsQ)) kept rfl
  case asm1G fitsBits fitsOut =>
    have framed : State.Inv { s with fbits := frameBits .g1 s.test s.mbits } :=
      { inv with fit := ⟨ht, hm, overCapacity_eq_false.mp fitsBits, hi, hq, his, hqs, hob⟩ }
    exact framed.setOutput (run.resolve_right id) (assemble1G_ne_nil _) (unitPeak_assemble1G _)
      (overCapacity_eq_false.mp fitsOut)
  case asm2G c m message fits configured loadedI loadedQ hc kept hm2 =>
    obtain ⟨lengthI, lengthQ⟩ := s.frameSpread_length message
    rw [← hc] at lengthI lengthQ
    have bits := (frameBits_g2_length message s.test).trans_lt (show 300 < Config.capacity by decide)
    have framed : State.Inv { s with
        fbits := frameBits .g2 s.test s.mbits, ichip := c.iChips, qchip := c.qChips, lfsrI := c.stateI
        lfsrQ := c.stateQ } :=
      { inv with fit := ⟨ht, hm, bits, lengthI.trans_lt (by decide), lengthQ.trans_lt (by decide), his, hqs, hob⟩ }
    have samples := s.spc.isLt
    exact framed.writeModulation (run.resolve_right id) configured fits (by rw [lengthI]; omega)
      (by rw [lengthQ]; omega) kept hm2
  -- Playback moves.
  case pullCyclic ready cyclic => exact inv.pullCyclic ready cyclic _
  case pullFinite ready finite hnext hend => exact inv.pullFinite ready finite hnext hend
  case rewind ready => exact inv.rewind ready

/-! ### Every operation and every step -/

theorem exec_inv {i : Instr} {s t : State} (inv : s.Inv) (h : exec i s = .next t) : t.Inv := by
  obtain ⟨-, k, rfl⟩ | ⟨-, k, rfl⟩ | ⟨u, r, done, run, rfl⟩ := exec_cases h
  · exact inv.respond _
  · exact inv.enterError k
  · exact (done.inv inv run).respond r

theorem rejectCommand_inv {s t : State} (inv : s.Inv) (h : rejectCommand s = .next t) : t.Inv := by
  obtain ⟨k, -, rfl⟩ | ⟨-, k, -, rfl⟩ | ⟨-, u, r, raised, -⟩ := State.perform_cases h
  · exact inv.respond _
  · exact inv.enterError k
  · exact nomatch raised

theorem step_inv {s t : State} (inv : s.Inv) (h : step s = .next t) : t.Inv := by
  have taken (rest : List Word) : State.Inv { s with port := rest } := inv.withPorts rest s.resp s.resetIn
  unfold step at h
  split at h
  next =>
    obtain rfl := Host.Outcome.next.inj h
    exact s.restart_inv.withPorts s.port none false
  next =>
    split at h
    next => exact exec_inv (taken _) h
    next => exact rejectCommand_inv (taken _) h
    next =>
      obtain rfl := Host.Outcome.next.inj h
      exact inv

/-! ### The obligations -/

/-- Settles O12. -/
theorem resetStateSatisfiesTheInvariant : Obligations.ResetStateSatisfiesTheInvariant := State.reset.restart_inv

/-- Settles O13: a step is the reset input, a completing operation, an error answered or entered, or nothing. -/
theorem everyStepKeepsTheInvariant : Obligations.EveryStepKeepsTheInvariant := fun _ _ => step_inv

end Sys2Proof.Machine
end

section
/-! PROOFS for 46_system.md: a register read after it was written, the buffers as `BUF.RD` lists them, and from these O22
and O25. -/

namespace Sys2Proof.Machine

/-! ### A register read after it was written -/

/-- A value that fits the implemented bits of a register is kept whole (10_state.md R27 to R33). -/
theorem setWidth_setWidth_of_lt {k : Nat} {v : Word} (h : v.toNat < 2 ^ k) : (v.setWidth k).setWidth 32 = v := by
  rw [← BitVec.toNat_inj, BitVec.toNat_setWidth, BitVec.toNat_setWidth, Nat.mod_eq_of_lt h, Nat.mod_eq_of_lt v.isLt]

theorem csrRead_csrWrite {n : Nat} {v : Word} (writable : n ≤ 6) (clear : csrReservedClear n v = true)
    (seed : isSeedCsr n = true → seedWordInRange v = true) (s : State) : csrRead n (csrWrite n v s) = v := by
  match n, writable with
  | 0, _ => exact setWidth_setWidth_of_lt ((csrReservedClear_cfg v).mp clear)
  | 1, _ => exact setWidth_setWidth_of_lt ((csrReservedClear_spc_span (.inl rfl) v).mp clear)
  | 2, _ => exact setWidth_setWidth_of_lt ((csrReservedClear_spc_span (.inr rfl) v).mp clear)
  | 3, _ | 4, _ | 5, _ | 6, _ => exact setWidth_setWidth_of_lt ((seedWordInRange_iff v).mp (seed rfl)).2

/-- A CSR holds nothing of the response (10_state.md R27 to R35). -/
theorem csrRead_respond (n : Nat) (s : State) (r : Response) : csrRead n (s.respond r) = csrRead n s := by
  unfold csrRead
  split <;> rfl

/-! ### The elements of a buffer as words -/

theorem chipWord_eq_ite (c : Chip) : chipWord c = if c = .minus then 1 else 0 := by cases c <;> rfl

theorem f64Words_eq (x : F64) : f64Words x = [(x >>> 32).setWidth 32, x.setWidth 32] := by
  have low : x.extractLsb' 0 32 = x.setWidth 32 := by
    ext i hi
    simp
  have high : x.extractLsb' 32 32 = (x >>> 32).setWidth 32 := by
    ext i hi
    simp
  rw [f64Words, low, high]

/-- Buffer selectors run from 0 to 7 (46_system.md R254). -/
theorem getElem?_buffers_iff {s : State} {sel : Nat} {ws : List Word} :
    ((List.range 8).map fun n => lengthWord (bufferLength n s) :: bufferElements n s)[sel]? = some ws ↔
      sel ≤ 7 ∧ lengthWord (bufferLength sel s) :: bufferElements sel s = ws := by
  simp [List.getElem?_eq_some_iff, Nat.lt_succ_iff]

/-- The buffers in the encodings of 30_encoding.md R110. -/
theorem buffers_eq (s : State) :
    [BitVec.ofNat 32 s.mbits.length :: s.mbits.map (fun b => if b then 1 else 0),
     BitVec.ofNat 32 s.fbits.length :: s.fbits.map (fun b => if b then 1 else 0),
     BitVec.ofNat 32 s.ichip.length :: s.ichip.map (fun c => if c = .minus then 1 else 0),
     BitVec.ofNat 32 s.qchip.length :: s.qchip.map (fun c => if c = .minus then 1 else 0),
     BitVec.ofNat 32 s.taps.length :: s.taps.flatMap (fun x : F64 => [(x >>> 32).setWidth 32, x.setWidth 32]),
     BitVec.ofNat 32 s.ishp.length :: s.ishp,
     BitVec.ofNat 32 s.qshp.length :: s.qshp,
     BitVec.ofNat 32 s.obuf.length :: s.obuf.flatMap (fun z => [z.re, z.im])] =
      (List.range 8).map fun n => lengthWord (bufferLength n s) :: bufferElements n s := by
  simp only [← bitWord_eq_ite, ← chipWord_eq_ite, ← f64Words_eq]
  rfl

/-! ### The obligations -/

/-- Settles O22: a write that completes passed the tests on its value, and those make the register hold all of it. -/
theorem csrReadReturnsTheValueWritten : Obligations.CsrReadReturnsTheValueWritten := by
  intro s t r v he h ht
  obtain ⟨faulted, -⟩ | ⟨-, k, rfl⟩ | ⟨u, resp, done, -, rfl⟩ := exec_cases h
  · exact absurd he faulted
  · exact nomatch ht
  · cases done with
    | csrWr writable idle clear seed =>
      have read : csrRead r.toNat ((csrWrite r.toNat v s).respond .done) = v := by
        rw [csrRead_respond, csrRead_csrWrite writable clear seed]
      refine ⟨_, exec_csrRd (writable.trans (by decide)) _, read, ?_⟩
      rw [State.respond_resp, read]

/-- Settles O25: the statement's table lists what `BUF.RD` answers at 0 to 7, and any other selector raises
`InvalidInput`. -/
theorem bufferReadReturnsCountAndElements : Obligations.BufferReadReturnsCountAndElements := by
  refine ⟨fun _ => rfl, fun s sel => ⟨fun ws row => ?_, fun large he => ?_, fun large faulted => ?_⟩⟩
  · rw [buffers_eq] at row
    obtain ⟨hsel, rfl⟩ := getElem?_buffers_iff.mp row
    exact exec_bufRd hsel s
  · rw [exec_bufRd_reserved large, State.performAlways_raise he]
  · obtain ⟨k, hk⟩ := Option.ne_none_iff_exists'.mp faulted
    rw [exec_bufRd_reserved large, State.performAlways_raise_of_err hk]
    rfl

end Sys2Proof.Machine
end

section
/-! PROOFS for 45_frame.md, section 5: the chunks and the index of playback in pieces, `PULL` in finite playback, and from
these O59 and O60. -/

namespace Sys2Proof.Machine

/-! ### Chunks in pieces -/

/-- The index after a finite chunk of `n` samples (45_frame.md R227). -/
def nextIndex (out : List Sample) (start n : Nat) : Nat := start + min n (out.length - start)

/-- The chunk delivers the last sample for the first time (45_frame.md R227). -/
def deliversLast (out : List Sample) (eos : Bool) (start n : Nat) : Bool := nextIndex out start n == out.length && !eos

section
variable {out : List Sample} {start : Nat} (inside : start ≤ out.length)
include inside

theorem nextIndex_le (n : Nat) : nextIndex out start n ≤ out.length := by
  unfold nextIndex
  omega

theorem nextIndex_add (n m : Nat) : nextIndex out start (n + m) = nextIndex out (nextIndex out start n) m := by
  unfold nextIndex
  omega

/-- A chunk boundary may fall before the end, where the rest follows, or after it, where padding follows. -/
theorem finiteChunk_add (n m : Nat) :
    finiteChunk out start (n + m) = finiteChunk out start n ++ finiteChunk out (nextIndex out start n) m := by
  have size : (out.drop start).length = out.length - start := List.length_drop
  rcases Nat.le_total n (out.length - start) with before | after
  · have next : nextIndex out start n = start + n := by rw [nextIndex, Nat.min_eq_left before]
    have padding : n + m - min (n + m) (out.length - start) = m - min m (out.length - (start + n)) := by omega
    rw [next, finiteChunk, finiteChunk, finiteChunk, padding, List.take_add, List.drop_drop, Nat.min_eq_left before,
      Nat.sub_self, List.replicate_zero, List.append_nil, List.append_assoc]
  · have next : nextIndex out start n = out.length := by rw [nextIndex, Nat.min_eq_right after]; omega
    have padding : n + m - min (n + m) (out.length - start) = (n - min n (out.length - start)) + m := by omega
    rw [next, finiteChunk, finiteChunk, finiteChunk, padding, List.take_of_length_le (by omega),
      List.take_of_length_le (by omega), List.drop_length, List.take_nil, Nat.sub_self, Nat.min_zero, Nat.sub_zero,
      List.replicate_add, List.append_assoc, List.nil_append]

/-- The signal of two chunks is that of the one chunk they make up. -/
theorem deliversLast_add (eos : Bool) (n m : Nat) :
    deliversLast out eos start (n + m) = (deliversLast out eos start n ||
      deliversLast out (eos || deliversLast out eos start n) (nextIndex out start n) m) := by
  have later : nextIndex out start n = out.length → nextIndex out start (n + m) = out.length := by
    unfold nextIndex
    omega
  rw [deliversLast, deliversLast, deliversLast, ← nextIndex_add inside]
  by_cases first : nextIndex out start n = out.length
  · simp [first, later first]
  · have notYet : (nextIndex out start n == out.length) = false := beq_eq_false_iff_ne.mpr first
    simp [notYet]

end

theorem cyclicChunk_mod (out : List Sample) (start n : Nat) :
    cyclicChunk out (start % out.length) n = cyclicChunk out start n := by
  simp only [cyclicChunk, Nat.mod_add_mod]

theorem cyclicChunk_add (out : List Sample) (start n m : Nat) :
    cyclicChunk out start (n + m) = cyclicChunk out start n ++ cyclicChunk out (start + n) m := by
  simp only [cyclicChunk, List.range_add, List.map_append, List.map_map, Function.comp_def, Nat.add_assoc]

/-- A chunk takes no more samples than are left (45_frame.md R227). -/
theorem finiteChunk_eq (out : List Sample) (start n : Nat) :
    finiteChunk out start n = (out.drop start).take (min n (out.length - start)) ++
      List.replicate (n - min n (out.length - start)) zeroSample := by
  have size : (out.drop start).length = out.length - start := List.length_drop
  rw [finiteChunk, ← size, List.take_eq_take_min]

/-- Padding is words 0 (45_frame.md R227; 30_encoding.md R110). -/
theorem flatMap_replicate_zeroSample (n : Nat) :
    (List.replicate n zeroSample).flatMap sampleWords = List.replicate (2 * n) 0 := by
  induction n with
  | zero => rfl
  | succ n ih => rw [List.replicate_succ, List.flatMap_cons, ih, Nat.mul_succ, Nat.add_comm, List.replicate_add]; rfl

/-! ### The operation -/

section
variable {s : State} (he : s.err = none) (ready : s.ready = true)
include he ready

theorem exec_pull_finite (finite : s.cyclic = false) (n : Operand) :
    exec (.pull n) s = .next (State.respond
      { s with
        rdidx := BitVec.ofNat 32 (nextIndex s.obuf s.rdidx.toNat n.toNat)
        eos := s.eos || deliversLast s.obuf s.eos s.rdidx.toNat n.toNat }
      (.ok (deliversLast s.obuf s.eos s.rdidx.toNat n.toNat)
        ((finiteChunk s.obuf s.rdidx.toNat n.toNat).flatMap sampleWords))) := by
  rw [exec, execPull, if_neg (ne_false_of_eq_true ready), if_neg (ne_true_of_eq_false finite), pullFinite,
    State.perform_finish he]
  rfl

end

/-- What a `PULL` leaves: the index, `EOS` and the response as given, and every other field as it was. -/
structure Pulled (s t : State) (index : Nat) (eos : Bool) (r : Response) : Prop where
  index : t.rdidx.toNat = index
  eos : t.eos = eos
  resp : t.resp = some r
  frame : t = { s with rdidx := t.rdidx, eos := t.eos, resp := t.resp }

theorem Pulled.trans {s t u : State} {i j : Nat} {d e : Bool} {q r : Response} (first : Pulled s t i d q)
    (second : Pulled t u j e r) : Pulled s u j e r :=
  { second with
    frame := by
      rw [second.frame, first.frame] }

/-- Only the response can tell two pulls apart that leave the same index and `EOS`. -/
theorem Pulled.eq_but_resp {s t u : State} {i : Nat} {e : Bool} {q r : Response} (ht : Pulled s t i e q)
    (hu : Pulled s u i e r) : t = { u with resp := t.resp } := by
  have index : t.rdidx = u.rdidx := BitVec.eq_of_toNat_eq (ht.index.trans hu.index.symm)
  have eos : t.eos = u.eos := ht.eos.trans hu.eos.symm
  calc t = { s with rdidx := t.rdidx, eos := t.eos, resp := t.resp } := ht.frame
    _ = { s with rdidx := u.rdidx, eos := u.eos, resp := t.resp } := by rw [index, eos]
    _ = { ({ s with rdidx := u.rdidx, eos := u.eos, resp := u.resp } : State) with resp := t.resp } := rfl
    _ = { u with resp := t.resp } := by rw [← hu.frame]

section
variable {s t : State} (inv : s.Inv) (he : s.err = none) (ready : s.ready = true) {n : Operand}
  (h : exec (.pull n) s = .next t)
include inv he ready h

theorem pulled_cyclic (cyclic : s.cyclic = true) :
    Pulled s t ((s.rdidx.toNat + n.toNat) % s.obuf.length) s.eos
      (.ok false ((cyclicChunk s.obuf s.rdidx.toNat n.toNat).flatMap sampleWords)) := by
  rw [exec_pull_cyclic he ready cyclic, Host.Outcome.next.injEq] at h
  subst h
  exact ⟨inv.toNat_index (Nat.mod_lt _ (inv.obuf_length_pos ready)).le, rfl, rfl, rfl⟩

theorem pulled_finite (finite : s.cyclic = false) :
    Pulled s t (nextIndex s.obuf s.rdidx.toNat n.toNat) (s.eos || deliversLast s.obuf s.eos s.rdidx.toNat n.toNat)
      (.ok (deliversLast s.obuf s.eos s.rdidx.toNat n.toNat)
        ((finiteChunk s.obuf s.rdidx.toNat n.toNat).flatMap sampleWords)) := by
  rw [exec_pull_finite he ready finite, Host.Outcome.next.injEq] at h
  subst h
  exact ⟨inv.toNat_index (nextIndex_le inv.rdidx_le _), rfl, rfl, rfl⟩

end

/-- Two pulls and one pull that end alike deliver the same stream when their chunks and signals add up. -/
theorem Pulled.agree {s a b c : State} {i j : Nat} {d eos e e' f f' g g' : Bool} {x x' y y' z z' : List Word}
    (first : Pulled s a i d (.ok e' x')) (second : Pulled a b j eos (.ok f' y')) (both : Pulled s c j eos (.ok g' z'))
    (hx : a.resp = some (.ok e x)) (hy : b.resp = some (.ok f y)) (hz : c.resp = some (.ok g z))
    (data : z' = x' ++ y') (signal : g' = (e' || f')) : z = x ++ y ∧ g = (e || f) ∧ b = { c with resp := b.resp } := by
  obtain ⟨rfl, rfl⟩ := Response.ok.inj (Option.some.inj (hx.symm.trans first.resp))
  obtain ⟨rfl, rfl⟩ := Response.ok.inj (Option.some.inj (hy.symm.trans second.resp))
  obtain ⟨rfl, rfl⟩ := Response.ok.inj (Option.some.inj (hz.symm.trans both.resp))
  exact ⟨data, signal, (first.trans second).eq_but_resp both⟩

/-! ### The obligations -/

/-- Settles O60: the same index, `EOS`, signal and samples, in both kinds of playback. -/
theorem pullsInPiecesDeliverTheSameStream : Obligations.PullsInPiecesDeliverTheSameStream := by
  intro s a b c n m l x y z e f g inv he ready total ha hb hc hx hy hz
  have invA := exec_inv inv ha
  cases kind : s.cyclic with
  | true =>
    have first := pulled_cyclic inv he ready ha kind
    have second := pulled_cyclic invA (by rw [first.frame, he]) (by rw [first.frame, ready]) hb
      (by rw [first.frame]; exact kind)
    have both := pulled_cyclic inv he ready hc kind
    have sameObuf : a.obuf = s.obuf := by rw [first.frame]
    rw [sameObuf, first.index, first.eos, Nat.mod_add_mod, cyclicChunk_mod] at second
    rw [total, ← Nat.add_assoc, cyclicChunk_add] at both
    exact first.agree second both hx hy hz List.flatMap_append rfl
  | false =>
    have first := pulled_finite inv he ready ha kind
    have second := pulled_finite invA (by rw [first.frame, he]) (by rw [first.frame, ready]) hb
      (by rw [first.frame]; exact kind)
    have both := pulled_finite inv he ready hc kind
    have sameObuf : a.obuf = s.obuf := by rw [first.frame]
    rw [sameObuf, first.index, first.eos, ← nextIndex_add inv.rdidx_le, Bool.or_assoc,
      ← deliversLast_add inv.rdidx_le] at second
    rw [total, finiteChunk_add inv.rdidx_le] at both
    exact first.agree second both hx hy hz List.flatMap_append (deliversLast_add inv.rdidx_le _ _ _)

/-- Settles O59: the chunk is the finite one; after the end and for an empty chunk no sample is left to take, and the
invariant says whether the end was reached before. -/
theorem finitePullPadsAndSignalsOnce : Obligations.FinitePullPadsAndSignalsOnce := by
  intro s n k he ready finite inside fits hk
  have next : nextIndex s.obuf s.rdidx.toNat n.toNat = s.rdidx.toNat + k := by rw [nextIndex, hk]
  have quiet (h : ¬(s.rdidx.toNat + k = s.obuf.length ∧ s.eos = false)) :
      exec (.pull n) s = .next
        { s with rdidx := BitVec.ofNat 32 (s.rdidx.toNat + k),
                 resp := some (.ok false ((((s.obuf.drop s.rdidx.toNat).take k) ++
                   List.replicate (n.toNat - k) zeroSample).flatMap sampleWords)) } := by
    have signal : deliversLast s.obuf s.eos s.rdidx.toNat n.toNat = false := by
      simpa [deliversLast, next] using h
    rw [exec_pull_finite he ready finite, signal, finiteChunk_eq, next, ← hk, Bool.or_false]
    rfl
  refine ⟨quiet, fun last first => ?_, fun inv spent => ?_⟩
  · have signal : deliversLast s.obuf s.eos s.rdidx.toNat n.toNat = true := by
      simp [deliversLast, next, last, first]
    rw [exec_pull_finite he ready finite, signal, finiteChunk_eq, next, ← hk, last, Bool.or_true]
    rfl
  · have ended := inv.finite ready finite
    have empty : k = 0 := by
      obtain reached | rfl := spent
      · rw [hk, ended.mpr reached, Nat.sub_self, Nat.min_zero]
      · rw [hk]
        exact Nat.zero_min _
    have before : ¬(s.rdidx.toNat + k = s.obuf.length ∧ s.eos = false) := by
      rw [empty]
      exact fun ⟨reached, first⟩ => absurd (first.symm.trans (ended.mp reached)) nofun
    refine ⟨_, ?_, rfl⟩
    rw [quiet before, empty, List.take_zero, List.nil_append, Nat.sub_zero, flatMap_replicate_zeroSample, Nat.add_zero,
      BitVec.ofNat_toNat, BitVec.setWidth_eq]

end Sys2Proof.Machine
end

section
/-! PROOFS for 45_frame.md, sections 3 and 4: the generation and the frame bits, the samples of an assembled 1G frame, and
from these O53 and O54. -/

namespace Sys2Proof.Machine

/-! ### The generation and the frame bits -/

theorem State.gen_of_g1 {s : State} (h : s.cfg.getLsbD 0 = false) : s.gen = .g1 := if_neg (ne_true_of_eq_false h)

theorem State.gen_of_g2 {s : State} (h : s.cfg.getLsbD 0 = true) : s.gen = .g2 := if_pos h

/-- A 1G message is a whole number of bytes (45_frame.md R215). -/
theorem messageLengthOk_g1_iff (n : Nat) : messageLengthOk .g1 n = true ↔ n % 8 = 0 := beq_iff_eq

/-- A 2G message is 250 bits (45_frame.md R216). -/
theorem messageLengthOk_g2_iff (n : Nat) : messageLengthOk .g2 n = true ↔ n = 250 := beq_iff_eq

theorem syncPattern_length (test : Bool) : (syncPattern test).length = 9 := by cases test <;> rfl

theorem frameBits_g1_length (test : Bool) (m : List Bool) : (frameBits .g1 test m).length = 24 + m.length := by
  rw [frameBits, List.length_append, List.length_append, List.length_replicate, syncPattern_length]
  rfl

/-! ### The samples of a 1G frame -/

/-- In a list made of pieces of one length, element `r` of piece `p` stands at index `k p + r`. -/
theorem getElem?_flatMap_of_length {α β : Type} {f : α → List β} {k : Nat} (hf : ∀ a, (f a).length = k) (l : List α)
    (p : Nat) {r : Nat} (hr : r < k) : (l.flatMap f)[k * p + r]? = l[p]?.bind fun a => (f a)[r]? := by
  induction l generalizing p with
  | nil => simp
  | cons a l ih =>
    rw [List.flatMap_cons]
    cases p with
    | zero => rw [Nat.mul_zero, Nat.zero_add, List.getElem?_append_left (by rw [hf]; exact hr)]; rfl
    | succ p =>
      have later : k * (p + 1) + r = (f a).length + (k * p + r) := by rw [hf, Nat.mul_succ]; omega
      rw [later, List.getElem?_append_right (Nat.le_add_right _ _), Nat.add_sub_cancel_left, ih,
        List.getElem?_cons_succ]

/-- The first half of a bit is at +1.1 rad for a 1 and at -1.1 rad for a 0, the second half the other way round
(44_biphase.md R202). -/
theorem modulateBit_getElem? (d : Bool) {r : Nat} (hr : r < 16) :
    (modulateBit d)[r]? = some (if d = decide (r < 8) then phasePlus else phaseMinus) := by
  have halves (a b : Sample) : (List.replicate 8 a ++ List.replicate 8 b)[r]? = some (if r < 8 then a else b) := by
    by_cases first : r < 8
    · rw [if_pos first, List.getElem?_append_left (by simpa using first), List.getElem?_replicate_of_lt first]
    · rw [if_neg first, List.getElem?_append_right (by simpa using first), List.length_replicate,
        List.getElem?_replicate_of_lt (by omega)]
  cases d
  · rw [modulateBit_false, halves]
    by_cases first : r < 8 <;> simp [first, phasePlus, phaseMinus]
  · rw [modulateBit_true, halves]
    by_cases first : r < 8 <;> simp [first, phasePlus, phaseMinus]

theorem assemble1G_length (fb : List Bool) : (assemble1G fb).length = 1024 + 16 * fb.length := by
  rw [assemble1G, List.length_append, List.length_replicate, List.length_flatMap,
    List.map_congr_left fun d _ => modulateBit_length d]
  simp [Config.carrierSamples, Nat.mul_comm]

/-- The carrier comes first (45_frame.md R218). -/
theorem assemble1G_getElem?_carrier (fb : List Bool) {n : Nat} (hn : n < 1024) :
    (assemble1G fb)[n]? = some carrierSample := by
  have carrier : n < Config.carrierSamples := hn
  rw [assemble1G, List.getElem?_append_left (by simpa using carrier), List.getElem?_replicate_of_lt carrier]

/-- Then sixteen samples for each bit (45_frame.md R218). -/
theorem assemble1G_getElem?_bit {fb : List Bool} {p r : Nat} {d : Bool} (hd : fb[p]? = some d) (hr : r < 16) :
    (assemble1G fb)[1024 + 16 * p + r]? = some (if d = decide (r < 8) then phasePlus else phaseMinus) := by
  have size : (List.replicate Config.carrierSamples carrierSample).length = 1024 := List.length_replicate
  rw [assemble1G, Nat.add_assoc, ← size, List.getElem?_append_right (Nat.le_add_right _ _), Nat.add_sub_cancel_left,
    getElem?_flatMap_of_length modulateBit_length _ _ hr, hd]
  exact modulateBit_getElem? d hr

/-! ### The operations outside the faulted state -/

section
variable {s : State} (he : s.err = none)
include he

theorem exec_frmBuild :
    exec .frmBuild s =
      if messageLengthOk s.gen s.mbits.length then
        if overCapacity (frameBits s.gen s.test s.mbits).length then .next (s.enterError .invalidInput)
        else .next (State.respond { s with fbits := frameBits s.gen s.test s.mbits } .done)
      else .next (s.enterError .invalidInput) := by
  rw [exec, execFrmBuild, apply_ite s.perform, apply_ite s.perform, State.perform_raise he, State.perform_finish he]
  cases messageLengthOk s.gen s.mbits.length <;> rfl

/-- `ASM` in 1G: the length of the message, then the capacity, decided by the output (45_frame.md R220). -/
theorem exec_asm_g1 (hg : s.gen = .g1) :
    exec .asm s =
      if messageLengthOk .g1 s.mbits.length then
        if 2 ^ 32 ≤ 1024 + 16 * (24 + s.mbits.length) then .next (s.enterError .invalidInput)
        else .next (State.respond (State.setOutput { s with fbits := frameBits .g1 s.test s.mbits }
          (assemble1G (frameBits .g1 s.test s.mbits))) .done)
      else .next (s.enterError .invalidInput) := by
  have ran : exec .asm s = s.perform (asm1G s) := by rw [exec, execAsm, hg]
  have capacity : (overCapacity (frameBits .g1 s.test s.mbits).length ||
      overCapacity (assemble1G (frameBits .g1 s.test s.mbits)).length) = true ↔
        2 ^ 32 ≤ 1024 + 16 * (24 + s.mbits.length) := by
    rw [Bool.or_eq_true, overCapacity_eq_true, overCapacity_eq_true, assemble1G_length, frameBits_g1_length]
    omega
  rw [ran, asm1G, apply_ite s.perform, apply_ite s.perform, State.perform_raise he, State.perform_finish he]
  simp only [capacity]
  cases messageLengthOk .g1 s.mbits.length <;> rfl

end

/-! ### The obligations -/

/-- Settles O53: the generation decides the length test, and a 2G frame always fits. -/
theorem frameBitsArePreambleSyncMessage : Obligations.FrameBitsArePreambleSyncMessage := by
  refine ⟨rfl, fun s he => ?_⟩
  rw [exec_frmBuild he]
  refine ⟨fun hg bad => ?_, fun hg bad => ?_, fun hg bytes fits => ?_, fun hg message => ?_⟩
  · rw [s.gen_of_g1 hg, if_neg (mt (messageLengthOk_g1_iff _).mp bad)]
  · rw [s.gen_of_g2 hg, if_neg (mt (messageLengthOk_g2_iff _).mp bad)]
  · have small : ¬overCapacity (frameBits .g1 s.test s.mbits).length = true := by
      rw [overCapacity_eq_true, frameBits_g1_length]
      exact Nat.not_le.mpr fits
    rw [s.gen_of_g1 hg, if_pos ((messageLengthOk_g1_iff _).mpr bytes), if_neg small]
    rfl
  · have small : ¬overCapacity (frameBits .g2 s.test s.mbits).length = true := by
      rw [frameBits_g2_length message]
      decide
    rw [s.gen_of_g2 hg, if_pos ((messageLengthOk_g2_iff _).mpr message), if_neg small]
    rfl

/-- Settles O54, from the length and the elements of the assembled samples. -/
theorem assembleFirstGenerationFrame : Obligations.AssembleFirstGenerationFrame := by
  refine ⟨rfl, fun s he hg => ?_⟩
  rw [exec_asm_g1 he (s.gen_of_g1 hg)]
  refine ⟨fun bad => if_neg (mt (messageLengthOk_g1_iff _).mp bad), fun bytes fits => ?_⟩
  rw [if_pos ((messageLengthOk_g1_iff _).mpr bytes), if_neg (Nat.not_le.mpr fits)]
  refine ⟨frameBits .g1 s.test s.mbits, assemble1G (frameBits .g1 s.test s.mbits), rfl, ?_,
    fun n => assemble1G_getElem?_carrier _, fun p r d => assemble1G_getElem?_bit, rfl⟩
  rw [assemble1G_length, frameBits_g1_length]

end Sys2Proof.Machine
end

section
/-! PROOFS for 42_rrc.md, shaping: the three operations outside the faulted state, the convolution over the reals as a sum
over chips, and from these O44, O45 and O46. -/

namespace Sys2Proof.Machine

/-! ### The half-length and the stored taps -/

/-- The half-length as the statements write it out (42_rrc.md R166). -/
theorem State.halfLength_eq (s : State) :
    s.halfLength = match Config.spanUnit with
      | .chips => s.span.toNat * s.spc.toNat
      | .samples => s.span.toNat := by
  unfold State.halfLength Machine.halfLength
  cases Config.spanUnit <;> rfl

theorem storedTaps_of_eq_zero {H : Nat} (h : H = 0) (spc : Nat) : storedTaps H spc = [one64] := if_pos h

/-- Taps of more than one element are what the numerics record stores, unless that misses the tolerance (42_rrc.md R169;
log entries 7 and 10). -/
theorem storedTaps_eq_or (H spc : Nat) :
    H = 0 ∨ storedTaps H spc = (exactTaps 4 5 H spc).map Config.num64 ∨
      unitEnergy ((exactTaps 4 5 H spc).map Config.num64) = false := by
  rcases Nat.eq_zero_or_pos H with h | h
  · exact .inl h
  · rw [storedTaps, if_neg h.ne']
    exact .inr (bounded_eq_or _ _ _)

/-! ### The operations outside the faulted state -/

section
variable {s : State} (he : s.err = none)
include he

theorem exec_rrcTaps :
    exec .rrcTaps s =
      if s.spc = 0 then .next (s.enterError .configurationMismatch)
      else if 2 ^ 32 ≤ 2 * s.halfLength + 1 then .next (s.enterError .invalidInput)
      else .next (State.respond { s with taps := storedTaps s.halfLength s.spc.toNat } .done) := by
  rw [exec, execRrcTaps, apply_ite s.perform, apply_ite s.perform, State.perform_raise he, State.perform_raise he,
    State.perform_finish he]
  simp only [overCapacity_eq_true]

theorem exec_rrcShapei :
    exec .rrcShapei s =
      if s.spc = 0 then .next (s.enterError .configurationMismatch)
      else if s.taps = [] then .next (s.enterError .invalidInput)
      else if 2 ^ 32 ≤ s.ichip.length * s.spc.toNat then .next (s.enterError .invalidInput)
      else .next (State.respond { s with ishp := storedShape s.ichip s.taps s.spc.toNat } .done) := by
  rw [exec, execRrcShapei, apply_ite s.perform, apply_ite s.perform, apply_ite s.perform, State.perform_raise he,
    State.perform_raise he, State.perform_finish he]
  simp only [overCapacity_eq_true]

theorem exec_rrcShapeq :
    exec .rrcShapeq s =
      if s.spc = 0 then .next (s.enterError .configurationMismatch)
      else if s.taps = [] then .next (s.enterError .invalidInput)
      else if 2 ^ 32 ≤ s.qchip.length * s.spc.toNat then .next (s.enterError .invalidInput)
      else .next (State.respond { s with qshp := storedShape s.qchip s.taps s.spc.toNat } .done) := by
  rw [exec, execRrcShapeq, apply_ite s.perform, apply_ite s.perform, apply_ite s.perform, State.perform_raise he,
    State.perform_raise he, State.perform_finish he]
  simp only [overCapacity_eq_true]

end

/-! ### Values of expressions -/

@[simp] theorem exprInt_value (n : Int) : (exprInt n).value = n := by simp [exprInt, RealExpr.value]

theorem exprSum_value (es : List RealExpr) : (exprSum es).value = (es.map RealExpr.value).sum := by
  induction es with
  | nil => simp [exprSum]
  | cons e es ih => rw [List.map_cons, List.sum_cons, ← ih]; rfl

theorem sum_map_range (f : Nat → ℝ) (n : Nat) : ((List.range n).map f).sum = ∑ i ∈ Finset.range n, f i := by
  induction n with
  | zero => rfl
  | succ n ih => rw [List.sum_range_succ, ih, Finset.sum_range_succ]

/-! ### The up-sampled chips -/

/-- Chip `c` of a list as a real number, 0 outside it. -/
def chipReal (chips : List Chip) (c : Nat) : ℝ :=
  match chips[c]? with
  | some .plus => 1
  | some .minus => -1
  | none => 0

theorem elim_chipValue_value (chips : List Chip) (c : Nat) :
    (chips[c]?.elim (exprInt 0) chipValue).value = chipReal chips c := by
  unfold chipReal
  rcases chips[c]? with _ | x
  · simp
  · cases x <;> simp [chipValue]

theorem chipReal_eq_zero {chips : List Chip} {c : Nat} (h : chips.length ≤ c) : chipReal chips c = 0 := by
  rw [chipReal, List.getElem?_eq_none h]

/-- A chip stands at the first of its positions, zeros at the others (42_rrc.md R170). -/
theorem upsample_getElem? {spc : Nat} (hs : 0 < spc) (chips : List Chip) (m : Nat) :
    (upsample chips spc)[m]?.getD (exprInt 0) =
      if m % spc = 0 then chips[m / spc]?.elim (exprInt 0) chipValue else exprInt 0 := by
  have inside : m % spc < spc := Nat.mod_lt m hs
  have piece (c : Chip) : ((List.range spc).map fun j => if j = 0 then chipValue c else exprInt 0).length = spc := by
    simp
  conv_lhs => rw [← Nat.div_add_mod m spc]
  rw [upsample, getElem?_flatMap_of_length piece _ _ inside]
  rcases chips[m / spc]? with _ | c
  · simp
  · simp [inside]

/-- The up-sampled sequence is the sum of the chips, each at the first of its positions (42_rrc.md R170). -/
theorem upsample_value {spc : Nat} (hs : 0 < spc) (chips : List Chip) (m : Nat) :
    (((upsample chips spc)[m]?).getD (exprInt 0)).value =
      ∑ c ∈ Finset.range chips.length, if m = c * spc then chipReal chips c else 0 := by
  rw [upsample_getElem? hs]
  by_cases first : m % spc = 0
  · have position (c : Nat) : m = c * spc ↔ c = m / spc := by
      rw [eq_comm (a := c), Nat.div_eq_iff_eq_mul_left hs (Nat.dvd_of_mod_eq_zero first)]
    simp only [if_pos first, elim_chipValue_value, position, Finset.sum_ite_eq', Finset.mem_range]
    split
    · rfl
    · exact chipReal_eq_zero (Nat.not_lt.mp ‹_›)
  · have elsewhere (c : Nat) : m ≠ c * spc := fun h => first (h ▸ Nat.mul_mod_left c spc)
    simp [first, elsewhere]

/-! ### The convolution -/

/-- Tap `i` of a list as a real number, 0 outside it. -/
noncomputable def tapReal (taps : List RealExpr) (i : Nat) : ℝ := (taps[i]?.map RealExpr.value).getD 0

theorem getD_value (taps : List RealExpr) (i : Nat) : (taps[i]?.getD (exprInt 0)).value = tapReal taps i := by
  unfold tapReal
  cases taps[i]? <;> simp

/-- The input at tap `i` of output `n` is the chip whose first position is `n + H - i` (42_rrc.md R171). -/
theorem convInput_value {spc : Nat} (hs : 0 < spc) (chips : List Chip) (H n i : Nat) :
    (convInput (upsample chips spc) H n i).value =
      ∑ c ∈ Finset.range chips.length, if c * spc ≤ n + H ∧ i = n + H - c * spc then chipReal chips c else 0 := by
  unfold convInput
  split
  next inside =>
    rw [upsample_value hs]
    refine Finset.sum_congr rfl fun c _ => if_congr ?_ rfl rfl
    omega
  next outside =>
    rw [exprInt_value, Int.cast_zero]
    refine (Finset.sum_eq_zero fun c _ => if_neg ?_).symm
    omega

/-- Shaping is the sum over the chips that stand within `H` samples of the output (42_rrc.md R172). -/
theorem exactShape_value {chips : List Chip} {taps : List RealExpr} {H spc n : Nat} (hs : 0 < spc)
    (hl : taps.length = 2 * H + 1) (hn : n < chips.length * spc) :
    (exactShape chips taps spc)[n]?.map RealExpr.value =
      some (∑ c ∈ Finset.range chips.length,
        if c * spc ≤ n + H ∧ n ≤ c * spc + H then tapReal taps (H + n - c * spc) * chipReal chips c else 0) := by
  have centre : taps.length / 2 = H := by omega
  rw [exactShape, convSame, List.getElem?_map, List.getElem?_range (by rw [upsample_length]; exact hn), centre,
    Option.map_some, Option.map_some, exprSum_value, List.map_map, hl, sum_map_range]
  congr 1
  calc ∑ i ∈ Finset.range (2 * H + 1),
        (RealExpr.mul (taps[i]?.getD (exprInt 0)) (convInput (upsample chips spc) H n i)).value
      = ∑ i ∈ Finset.range (2 * H + 1), ∑ c ∈ Finset.range chips.length,
          if c * spc ≤ n + H ∧ i = n + H - c * spc then tapReal taps i * chipReal chips c else 0 := by
        refine Finset.sum_congr rfl fun i _ => ?_
        rw [RealExpr.value, getD_value, convInput_value hs, Finset.mul_sum]
        exact Finset.sum_congr rfl fun c _ => by rw [mul_ite, mul_zero]
    _ = ∑ c ∈ Finset.range chips.length, ∑ i ∈ Finset.range (2 * H + 1),
          if c * spc ≤ n + H ∧ i = n + H - c * spc then tapReal taps i * chipReal chips c else 0 := Finset.sum_comm
    _ = _ := by
        refine Finset.sum_congr rfl fun c _ => ?_
        by_cases reached : c * spc ≤ n + H
        · simp only [reached, true_and, Finset.sum_ite_eq', Finset.mem_range, Nat.add_comm H n]
          exact if_congr (by omega) rfl rfl
        · simp [reached]

/-! ### The obligations -/

/-- Settles O44. -/
theorem tapsOperationWritesUnitEnergyTaps : Obligations.TapsOperationWritesUnitEnergyTaps := by
  refine ⟨rfl, fun s H he hH => ?_⟩
  obtain rfl : H = s.halfLength := hH.trans s.halfLength_eq.symm
  rw [exec_rrcTaps he]
  refine ⟨fun unset => if_pos unset, fun configured large => ?_, fun configured fits => ?_⟩
  · rw [if_neg configured, if_pos large]
  · rw [if_neg configured, if_neg (Nat.not_le.mpr fits)]
    exact ⟨storedTaps s.halfLength s.spc.toNat, storedTaps_length _ _, unitEnergy_storedTaps _ _,
      fun h => storedTaps_of_eq_zero h _, storedTaps_eq_or _ _, rfl⟩

/-- Settles O45, from the equations of the two operations. -/
theorem shapeOperationsFilterTheirChannel : Obligations.ShapeOperationsFilterTheirChannel := by
  refine ⟨rfl, rfl, fun s he => ?_⟩
  rw [exec_rrcShapei he, exec_rrcShapeq he]
  refine ⟨fun unset => ⟨if_pos unset, if_pos unset⟩, fun configured empty => ?_, fun configured tapped => ?_⟩
  · rw [if_neg configured, if_neg configured, if_pos empty, if_pos empty]
    exact ⟨rfl, rfl⟩
  · rw [if_neg configured, if_neg configured, if_neg tapped, if_neg tapped]
    refine ⟨fun large => if_pos large, fun large => if_pos large, fun fits => ?_, fun fits => ?_⟩
    · exact ⟨_, storedShape_length _ _ _, rfl, if_neg (Nat.not_le.mpr fits)⟩
    · exact ⟨_, storedShape_length _ _ _, rfl, if_neg (Nat.not_le.mpr fits)⟩

/-- Settles O46. -/
theorem shapeIsTheSumOverNearbyChips : Obligations.ShapeIsTheSumOverNearbyChips := by
  intro chips taps H spc n hs hl hn
  rw [exactShape_value hs hl hn, sum_map_range]
  rfl

end Sys2Proof.Machine
end

section
/-! PROOFS for 42_rrc.md, sections 1 and 2: the pulse expressions as real functions of the time, their limits at the two
removable singularities, the taps over the reals, and from these O41, O42 and O43. -/

namespace Sys2Proof

open Real in
/-- The general case of the pulse as a function of the time in chip periods, at roll-off 4/5 (42_rrc.md R167). -/
noncomputable def generalPulse (t : ℝ) : ℝ :=
  (sin (π * t * (1 / 5)) + 16 / 5 * t * cos (π * t * (9 / 5))) / (π * t * (1 - (16 / 5 * t) ^ 2))

namespace Machine

open Real

/-! ### The three expressions -/

theorem pulseCentre_value : (pulseCentre 4 5).value = 1 / 5 + 16 / 5 / π := by
  simp only [pulseCentre, RealExpr.value]
  norm_num

theorem pulseSpecial_value :
    (pulseSpecial 4 5).value =
      4 / 5 / √2 * ((1 + 2 / π) * sin (π * (5 / 16)) + (1 - 2 / π) * cos (π * (5 / 16))) := by
  simp only [pulseSpecial, RealExpr.value, exprInt_value]
  norm_num

theorem pulseGeneral_value (k : Int) (spc : Nat) :
    (pulseGeneral 4 5 k spc).value = generalPulse ((k : ℝ) / (spc : ℝ)) := by
  have scaled : (16 * (k : ℝ)) / (5 * (spc : ℝ)) = 16 / 5 * ((k : ℝ) / (spc : ℝ)) := mul_div_mul_comm _ _ _ _
  simp only [pulseGeneral, RealExpr.value, exprInt_value, exprSq, generalPulse]
  push_cast
  norm_num [scaled, sq]

/-! ### The closed form -/

theorem rrcPulse_zero : rrcPulse 0 = 1 / 5 + 16 / 5 / π := by
  rw [rrcPulse, if_pos rfl]
  norm_num

theorem rrcPulse_of_abs_eq {t : ℝ} (h : |t| = 5 / 16) :
    rrcPulse t = 4 / 5 / √2 * ((1 + 2 / π) * sin (π * (5 / 16)) + (1 - 2 / π) * cos (π * (5 / 16))) := by
  have nonzero : t ≠ 0 := by
    rintro rfl
    norm_num at h
  have special : |t| = 1 / (4 * (4 / 5)) := by rw [h]; norm_num
  have angle : π / (4 * (4 / 5)) = π * (5 / 16) := by ring
  simp only [rrcPulse, if_neg nonzero, if_pos special, angle]

theorem rrcPulse_of_ne {t : ℝ} (h0 : t ≠ 0) (h : |t| ≠ 5 / 16) : rrcPulse t = generalPulse t := by
  have general : |t| ≠ 1 / (4 * (4 / 5)) := by norm_num [h]
  rw [rrcPulse, if_neg h0, if_neg general, generalPulse]
  norm_num

theorem generalPulse_neg (t : ℝ) : generalPulse (-t) = generalPulse t := by
  have num : sin (π * -t * (1 / 5)) + 16 / 5 * -t * cos (π * -t * (9 / 5)) =
      -(sin (π * t * (1 / 5)) + 16 / 5 * t * cos (π * t * (9 / 5))) := by
    rw [mul_neg, neg_mul, neg_mul, sin_neg, cos_neg]
    ring
  have den : π * -t * (1 - (16 / 5 * -t) ^ 2) = -(π * t * (1 - (16 / 5 * t) ^ 2)) := by ring
  rw [generalPulse, num, den, neg_div_neg_eq, generalPulse]

theorem rrcPulse_neg (t : ℝ) : rrcPulse (-t) = rrcPulse t := by
  by_cases h0 : t = 0
  · rw [h0, neg_zero]
  by_cases h : |t| = 5 / 16
  · rw [rrcPulse_of_abs_eq h, rrcPulse_of_abs_eq (by rwa [abs_neg])]
  · rw [rrcPulse_of_ne h0 h, rrcPulse_of_ne (neg_ne_zero.mpr h0) (by rwa [abs_neg]), generalPulse_neg]

/-! ### The pulse at a tap position -/

/-- The special case is chosen exactly, on whole numbers (42_rrc.md R168). -/
theorem abs_position_eq_iff (k : Int) {spc : Nat} (hs : 0 < spc) :
    |(k : ℝ) / (spc : ℝ)| = 5 / 16 ↔ 16 * k.natAbs = 5 * spc := by
  have pos : (0 : ℝ) < spc := Nat.cast_pos.mpr hs
  have size : |(k : ℝ)| = (k.natAbs : ℝ) := by rw [Nat.cast_natAbs, Int.cast_abs]
  rw [abs_div, abs_of_pos pos, div_eq_div_iff pos.ne' (by norm_num), size]
  norm_cast
  omega

theorem pulse_value (k : Int) {spc : Nat} (hs : 0 < spc) :
    (pulse 4 5 k spc).value = rrcPulse ((k : ℝ) / (spc : ℝ)) := by
  have pos : (spc : ℝ) ≠ 0 := Nat.cast_ne_zero.mpr hs.ne'
  unfold pulse
  split
  next centre => rw [pulseCentre_value, centre, Int.cast_zero, zero_div, rrcPulse_zero]
  next away =>
    have nonzero : (k : ℝ) / (spc : ℝ) ≠ 0 := div_ne_zero (Int.cast_ne_zero.mpr away) pos
    split
    next special => rw [pulseSpecial_value, rrcPulse_of_abs_eq ((abs_position_eq_iff k hs).mpr special)]
    next general => rw [pulseGeneral_value, rrcPulse_of_ne nonzero (mt (abs_position_eq_iff k hs).mp general)]

/-! ### The limits at the removable singularities -/

open Filter Topology

/-- A quotient of two functions that vanish at a point tends to the quotient of their derivatives. -/
theorem tendsto_div_of_hasDerivAt {f g : ℝ → ℝ} {f' g' x : ℝ} (hf : HasDerivAt f f' x) (hg : HasDerivAt g g' x)
    (fx : f x = 0) (gx : g x = 0) (hg' : g' ≠ 0) : Tendsto (fun t => f t / g t) (𝓝[≠] x) (𝓝 (f' / g')) := by
  refine ((hasDerivAt_iff_tendsto_slope.mp hf).div (hasDerivAt_iff_tendsto_slope.mp hg) hg').congr' ?_
  filter_upwards [self_mem_nhdsWithin] with t ht
  have away : t - x ≠ 0 := sub_ne_zero.mpr ht
  change slope f x t / slope g x t = f t / g t
  rw [slope_def_field, slope_def_field, fx, gx, sub_zero, sub_zero]
  exact div_div_div_cancel_right₀ away _ _

theorem hasDerivAt_scaledTime (t : ℝ) : HasDerivAt (fun t : ℝ => 16 / 5 * t) (16 / 5) t := by
  simpa using (hasDerivAt_id t).const_mul (16 / 5 : ℝ)

theorem hasDerivAt_generalPulse_num (t : ℝ) :
    HasDerivAt (fun t => sin (π * t * (1 / 5)) + 16 / 5 * t * cos (π * t * (9 / 5)))
      (π / 5 * cos (π * t * (1 / 5)) + 16 / 5 * cos (π * t * (9 / 5)) -
        16 / 5 * t * (9 * π / 5) * sin (π * t * (9 / 5))) t := by
  have linear (c : ℝ) : HasDerivAt (fun t => π * t * c) (π * c) t := by
    simpa using ((hasDerivAt_id t).const_mul π).mul_const c
  refine ((linear (1 / 5)).sin.add ((hasDerivAt_scaledTime t).mul (linear (9 / 5)).cos)).congr_deriv ?_
  ring

theorem hasDerivAt_generalPulse_den (t : ℝ) :
    HasDerivAt (fun t => π * t * (1 - (16 / 5 * t) ^ 2)) (π * (1 - 3 * (16 / 5 * t) ^ 2)) t := by
  have linear : HasDerivAt (fun t : ℝ => π * t) π t := by simpa using (hasDerivAt_id t).const_mul π
  refine (linear.mul (((hasDerivAt_scaledTime t).fun_pow 2).const_sub 1)).congr_deriv ?_
  ring

theorem tendsto_generalPulse_zero : Tendsto generalPulse (𝓝[≠] 0) (𝓝 (pulseCentre 4 5).value) := by
  have limit := tendsto_div_of_hasDerivAt (hasDerivAt_generalPulse_num 0) (hasDerivAt_generalPulse_den 0) (by simp)
    (by simp) (by simp [pi_ne_zero])
  have value : (pulseCentre 4 5).value = (π / 5 * cos (π * 0 * (1 / 5)) + 16 / 5 * cos (π * 0 * (9 / 5)) -
      16 / 5 * 0 * (9 * π / 5) * sin (π * 0 * (9 / 5))) / (π * (1 - 3 * (16 / 5 * 0) ^ 2)) := by
    rw [pulseCentre_value]
    field_simp
    simp
    ring
  rw [value]
  exact limit

/-- The angles at the singularity: `9 π / 16` and `5 π / 16` from `π / 16`. -/
theorem tendsto_generalPulse_special : Tendsto generalPulse (𝓝[≠] (5 / 16)) (𝓝 (pulseSpecial 4 5).value) := by
  have low : π * (5 / 16) * (1 / 5) = π / 16 := by ring
  have high : π * (5 / 16) * (9 / 5) = π / 16 + π / 2 := by ring
  have middle : π * (5 / 16) = π / 16 + π / 4 := by ring
  have limit := tendsto_div_of_hasDerivAt (hasDerivAt_generalPulse_num (5 / 16)) (hasDerivAt_generalPulse_den (5 / 16))
    (by rw [low, high, cos_add_pi_div_two]; ring) (by ring) (by norm_num [pi_ne_zero])
  have root : √2 ≠ 0 := by positivity
  have value : (pulseSpecial 4 5).value = (π / 5 * cos (π * (5 / 16) * (1 / 5)) + 16 / 5 * cos (π * (5 / 16) * (9 / 5)) -
      16 / 5 * (5 / 16) * (9 * π / 5) * sin (π * (5 / 16) * (9 / 5))) / (π * (1 - 3 * (16 / 5 * (5 / 16)) ^ 2)) := by
    rw [pulseSpecial_value, low, high, middle, sin_add, cos_add, cos_add_pi_div_two, sin_add_pi_div_two, cos_pi_div_four,
      sin_pi_div_four]
    field_simp
    ring
  rw [value]
  exact limit

/-! ### The taps over the reals -/

/-- The pulse at tap `i` of a tap set of half-length `H` (42_rrc.md R169). -/
noncomputable def rawTap (H spc i : Nat) : ℝ := rrcPulse (((i : ℝ) - (H : ℝ)) / (spc : ℝ))

/-- The sum of the squared raw taps (42_rrc.md R169). -/
noncomputable def tapEnergy (H spc : Nat) : ℝ := ∑ i ∈ Finset.range (2 * H + 1), rawTap H spc i ^ 2

theorem rawTap_symm {H spc k : Nat} (hk : k ≤ H) : rawTap H spc (H + k) = rawTap H spc (H - k) := by
  rw [rawTap, rawTap, Nat.cast_sub hk, Nat.cast_add, ← rrcPulse_neg]
  congr 1
  ring

theorem rrcPulse_zero_pos : 0 < rrcPulse 0 := by
  rw [rrcPulse_zero]
  positivity

theorem rawTap_centre (H spc : Nat) : rawTap H spc H = rrcPulse 0 := by rw [rawTap, sub_self, zero_div]

/-- The centre tap alone makes the energy positive. -/
theorem tapEnergy_pos (H spc : Nat) : 0 < tapEnergy H spc := by
  have centre : H ∈ Finset.range (2 * H + 1) := Finset.mem_range.mpr (by omega)
  calc 0 < rawTap H spc H ^ 2 := pow_pos (rawTap_centre H spc ▸ rrcPulse_zero_pos) 2
    _ ≤ tapEnergy H spc := Finset.single_le_sum (f := fun i => rawTap H spc i ^ 2) (fun _ _ => sq_nonneg _) centre

/-- The raw taps, one for each index (42_rrc.md R169). -/
theorem rawTaps_eq (num den H spc : Nat) :
    rawTaps num den H spc = (List.range (2 * H + 1)).map fun i : Nat => pulse num den ((i : Int) - (H : Int)) spc := by
  simp only [rawTaps, List.bind_eq_flatMap, List.map_flatMap, List.pure_def, List.map_cons, List.map_nil]
  exact List.map_eq_flatMap.symm

section
variable {spc : Nat} (hs : 0 < spc) (H : Nat)
include hs

theorem rawTaps_value : (rawTaps 4 5 H spc).map RealExpr.value = (List.range (2 * H + 1)).map (rawTap H spc) := by
  rw [rawTaps_eq, List.map_map]
  refine List.map_congr_left fun i _ => ?_
  rw [Function.comp_apply, pulse_value _ hs, rawTap]
  push_cast
  rfl

theorem tapNorm_value : (tapNorm (rawTaps 4 5 H spc)).value = √(tapEnergy H spc) := by
  have squares : ((rawTaps 4 5 H spc).map exprSq).map RealExpr.value =
      (List.range (2 * H + 1)).map fun i => rawTap H spc i ^ 2 := by
    have square : RealExpr.value ∘ exprSq = (fun v => v ^ 2) ∘ RealExpr.value := by
      funext e
      simp [exprSq, RealExpr.value, sq]
    rw [List.map_map, square, ← List.map_map, rawTaps_value hs, List.map_map]
    rfl
  rw [tapNorm, RealExpr.value, exprSum_value, squares, sum_map_range, tapEnergy]

/-- The taps are the pulse divided by its norm (42_rrc.md R169). -/
theorem exactTaps_value :
    (exactTaps 4 5 H spc).map RealExpr.value =
      (List.range (2 * H + 1)).map fun i => rawTap H spc i / √(tapEnergy H spc) := by
  have quotient : RealExpr.value ∘ (fun r => RealExpr.div r (tapNorm (rawTaps 4 5 H spc))) =
      (fun v => v / √(tapEnergy H spc)) ∘ RealExpr.value := by
    funext r
    simp [RealExpr.value, tapNorm_value hs]
  rw [exactTaps, List.map_map, quotient, ← List.map_map, rawTaps_value hs, List.map_map]
  rfl

theorem exactTaps_getElem?_value {i : Nat} (hi : i ≤ 2 * H) :
    (exactTaps 4 5 H spc)[i]?.map RealExpr.value = some (rawTap H spc i / √(tapEnergy H spc)) := by
  rw [← List.getElem?_map, exactTaps_value hs, List.getElem?_map, List.getElem?_range (by omega), Option.map_some]

theorem exactTaps_energy : ((exactTaps 4 5 H spc).map fun e => e.value ^ 2).sum = 1 := by
  have values : ((exactTaps 4 5 H spc).map fun e => e.value ^ 2) =
      ((exactTaps 4 5 H spc).map RealExpr.value).map fun v => v ^ 2 := by
    rw [List.map_map]
    rfl
  have pos := tapEnergy_pos H spc
  rw [values, exactTaps_value hs, List.map_map, sum_map_range]
  simp only [Function.comp_apply, div_pow, Real.sq_sqrt pos.le]
  rw [← Finset.sum_div]
  exact div_self pos.ne'

end

/-- The single tap is its own norm (42_rrc.md R169). -/
theorem rawTap_div_norm_of_zero (spc : Nat) : rawTap 0 spc 0 / √(tapEnergy 0 spc) = 1 := by
  have pos : 0 < rawTap 0 spc 0 := rawTap_centre 0 spc ▸ rrcPulse_zero_pos
  rw [tapEnergy, Finset.sum_range_one, Real.sqrt_sq pos.le, div_self pos.ne']

/-! ### The obligations -/

/-- Settles O41. -/
theorem pulseIsTheClosedFormRrcPulse : Obligations.PulseIsTheClosedFormRrcPulse := by
  refine ⟨fun k spc hs => pulse_value k hs, rrcPulse_neg, fun k spc hs => ?_⟩
  rw [← abs_position_eq_iff k hs]
  norm_num

/-- Settles O42: the pulse is even, so a distance that tends to 5/16 is a time that does. -/
theorem specialPulseValuesAreTheLimits : Obligations.SpecialPulseValuesAreTheLimits := by
  intro k spc hs
  simp only [pulseGeneral_value]
  refine ⟨fun away tends => ?_, fun away tends => ?_⟩
  · refine tendsto_generalPulse_zero.comp (tendsto_nhdsWithin_iff.mpr ⟨tends, .of_forall fun j => ?_⟩)
    exact div_ne_zero (Int.cast_ne_zero.mpr (away j)) (Nat.cast_ne_zero.mpr (hs j).ne')
  · have even (t : ℝ) : generalPulse t = generalPulse |t| := by
      rcases abs_choice t with h | h <;> rw [h]
      exact (generalPulse_neg t).symm
    have limit := tendsto_generalPulse_special.comp (tendsto_nhdsWithin_iff.mpr ⟨tends, .of_forall fun j =>
      mt (abs_position_eq_iff (k j) (hs j)).mp (away j)⟩)
    exact limit.congr fun j => (even _).symm

/-- Settles O43. -/
theorem exactTapsHaveUnitEnergy : Obligations.ExactTapsHaveUnitEnergy := by
  intro H spc hs
  refine ⟨exactTaps_length 4 5 H spc, exactTaps_energy hs H,
    ⟨_, Real.sqrt_pos.mpr (tapEnergy_pos H spc), fun i => exactTaps_getElem?_value hs H⟩, fun k hk => ?_, ?_⟩
  · rw [exactTaps_getElem?_value hs H (by omega), exactTaps_getElem?_value hs H (by omega), rawTap_symm hk]
  · rintro rfl
    rw [exactTaps_value hs]
    exact congrArg (fun v => [v]) (rawTap_div_norm_of_zero spc)

end Machine

end Sys2Proof
end

section
/-! PROOFS for 43_oqpsk.md, the peak: the pulse at whole chips, the first sample of a shaped stream, the greatest magnitude
of a stream, and from these O50. -/

namespace Sys2Proof.Machine

open Real

/-! ### The pulse at whole chips -/

/-- One chip or more from the centre the pulse falls off with the square of the distance. -/
theorem abs_rrcPulse_le {c : Nat} (hc : 0 < c) : |rrcPulse (-(c : ℝ))| ≤ 1 / 6 * ((c : ℝ) ^ 2)⁻¹ := by
  have one : (1 : ℝ) ≤ c := Nat.one_le_cast.mpr hc
  have general : rrcPulse (-(c : ℝ)) = generalPulse c := by
    rw [rrcPulse_neg, rrcPulse_of_ne (by positivity)]
    rw [abs_of_pos (by positivity)]
    intro h
    linarith
  have num : |sin (π * c * (1 / 5)) + 16 / 5 * c * cos (π * c * (9 / 5))| ≤ 21 / 5 * c := by
    calc |sin (π * c * (1 / 5)) + 16 / 5 * c * cos (π * c * (9 / 5))|
        ≤ |sin (π * c * (1 / 5))| + |16 / 5 * c * cos (π * c * (9 / 5))| := abs_add_le _ _
      _ ≤ 1 + 16 / 5 * c * 1 := by
        rw [abs_mul, abs_of_pos (by positivity : (0 : ℝ) < 16 / 5 * c)]
        gcongr
        · exact abs_sin_le_one _
        · exact abs_cos_le_one _
      _ ≤ 21 / 5 * c := by linarith
  have den : 126 / 5 * (c : ℝ) ^ 3 ≤ |π * c * (1 - (16 / 5 * c) ^ 2)| := by
    have square : 1 ≤ (c : ℝ) ^ 2 := one_le_pow₀ one
    have positive : 0 ≤ π * c * ((16 / 5 * c) ^ 2 - 1) := mul_nonneg (by positivity) (by nlinarith)
    rw [show π * c * (1 - (16 / 5 * c) ^ 2) = -(π * c * ((16 / 5 * c) ^ 2 - 1)) by ring, abs_neg, abs_of_nonneg positive]
    calc 126 / 5 * (c : ℝ) ^ 3 ≤ 3 * c * (231 / 25 * (c : ℝ) ^ 2) := by
          have : 0 ≤ (c : ℝ) ^ 3 := by positivity
          linarith
      _ ≤ π * c * ((16 / 5 * c) ^ 2 - 1) := by
          gcongr
          · exact pi_gt_three.le
          · linarith
  rw [general, generalPulse, abs_div]
  calc _ ≤ 21 / 5 * (c : ℝ) / (126 / 5 * (c : ℝ) ^ 3) := by gcongr
    _ = 1 / 6 * ((c : ℝ) ^ 2)⁻¹ := by field_simp; norm_num

theorem sum_inv_sq_succ_le (n : Nat) : ∑ c ∈ Finset.range n, (((c + 1 : Nat) : ℝ) ^ 2)⁻¹ ≤ 2 := by
  have reindexed : Finset.Ico (0 + 1) (n + 1) = Finset.Ioo 0 (n + 1) := by
    ext i
    simp only [Finset.mem_Ico, Finset.mem_Ioo]
    omega
  rw [Finset.range_eq_Ico, Finset.sum_Ico_add' (fun c : Nat => ((c : ℝ) ^ 2)⁻¹), reindexed]
  simpa using sum_Ioo_inv_sq_le (α := ℝ) 0 (n + 1)

/-- The pulse at the centre is larger than all pulses at the other chips together (43_oqpsk.md R190; log entry 8). -/
theorem sum_abs_rrcPulse_lt (n : Nat) :
    ∑ c ∈ Finset.range n, |rrcPulse (-((c + 1 : Nat) : ℝ))| < rrcPulse 0 := by
  have centre : 1 < rrcPulse 0 := by
    have quarter : 4 / 5 ≤ 16 / 5 / π := by
      rw [le_div_iff₀ pi_pos]
      linarith [pi_le_four]
    rw [rrcPulse_zero]
    have strict : 16 / 5 / π ≠ 4 / 5 := by
      intro h
      rw [div_eq_iff pi_ne_zero] at h
      linarith [pi_lt_d2]
    linarith [lt_of_le_of_ne quarter strict.symm]
  calc ∑ c ∈ Finset.range n, |rrcPulse (-((c + 1 : Nat) : ℝ))|
      ≤ ∑ c ∈ Finset.range n, 1 / 6 * (((c + 1 : Nat) : ℝ) ^ 2)⁻¹ :=
        Finset.sum_le_sum fun c _ => abs_rrcPulse_le (Nat.succ_pos c)
    _ = 1 / 6 * ∑ c ∈ Finset.range n, (((c + 1 : Nat) : ℝ) ^ 2)⁻¹ := (Finset.mul_sum _ _ _).symm
    _ ≤ 1 / 6 * 2 := by linarith [sum_inv_sq_succ_le n]
    _ < rrcPulse 0 := by linarith

/-! ### The first sample of a shaped stream -/

theorem abs_chipReal_le_one (chips : List Chip) (c : Nat) : |chipReal chips c| ≤ 1 := by
  unfold chipReal
  split <;> simp

theorem abs_chipReal_zero {chips : List Chip} (h : chips ≠ []) : |chipReal chips 0| = 1 := by
  match chips, h with
  | .plus :: _, _ => simp [chipReal]
  | .minus :: _, _ => simp [chipReal]

/-- The tap that reaches chip `c` from the first sample (42_rrc.md R172). -/
theorem rawTap_at_chip {H spc c : Nat} (hs : 0 < spc) (reached : c * spc ≤ H) :
    rawTap H spc (H - c * spc) = rrcPulse (-(c : ℝ)) := by
  have pos : (spc : ℝ) ≠ 0 := Nat.cast_ne_zero.mpr hs.ne'
  rw [rawTap, Nat.cast_sub reached, Nat.cast_mul]
  congr 1
  field_simp
  ring

/-- The weight of chip `c` in the first sample: the pulse at the chip, or 0 where the taps do not reach it. -/
noncomputable def firstWeight (H spc c : Nat) : ℝ := if c * spc ≤ H then rrcPulse (-(c : ℝ)) else 0

theorem abs_firstWeight_le (H spc c : Nat) : |firstWeight H spc c| ≤ |rrcPulse (-(c : ℝ))| := by
  unfold firstWeight
  split
  · exact le_rfl
  · simp

theorem exactShape_zero_value {chips : List Chip} {H spc : Nat} (hs : 0 < spc) (nonempty : chips ≠ []) :
    (exactShape chips (exactTaps 4 5 H spc) spc)[0]?.map RealExpr.value =
      some ((∑ c ∈ Finset.range chips.length, firstWeight H spc c * chipReal chips c) / √(tapEnergy H spc)) := by
  rw [exactShape_value hs (exactTaps_length 4 5 H spc) (Nat.mul_pos (List.length_pos_iff.mpr nonempty) hs),
    Finset.sum_div]
  congr 1
  refine Finset.sum_congr rfl fun c _ => ?_
  rw [Nat.zero_add, firstWeight]
  by_cases reached : c * spc ≤ H
  · rw [if_pos ⟨reached, Nat.zero_le _⟩, if_pos reached, tapReal, Nat.add_zero,
      exactTaps_getElem?_value hs H (by omega), rawTap_at_chip hs reached, Option.getD_some]
    ring
  · rw [if_neg fun h => reached h.1, if_neg reached, zero_mul, zero_div]

/-- The first chip outweighs all others together (43_oqpsk.md R190). -/
theorem sum_firstWeight_ne_zero {chips : List Chip} (nonempty : chips ≠ []) (H spc : Nat) :
    ∑ c ∈ Finset.range chips.length, firstWeight H spc c * chipReal chips c ≠ 0 := by
  obtain ⟨n, length⟩ : ∃ n, chips.length = n + 1 := Nat.exists_eq_succ_of_ne_zero (by simpa using nonempty)
  have first : |firstWeight H spc 0 * chipReal chips 0| = rrcPulse 0 := by
    rw [abs_mul, abs_chipReal_zero nonempty, mul_one, firstWeight, if_pos (by omega), Nat.cast_zero, neg_zero,
      abs_of_pos rrcPulse_zero_pos]
  have others : |∑ c ∈ Finset.range n, firstWeight H spc (c + 1) * chipReal chips (c + 1)| < rrcPulse 0 := by
    refine lt_of_le_of_lt ((Finset.abs_sum_le_sum_abs _ _).trans (Finset.sum_le_sum fun c _ => ?_))
      (sum_abs_rrcPulse_lt n)
    rw [abs_mul]
    exact (mul_le_of_le_one_right (abs_nonneg _) (abs_chipReal_le_one _ _)).trans (abs_firstWeight_le _ _ _)
  rw [length, Finset.sum_range_succ']
  intro cancelled
  rw [eq_neg_of_add_eq_zero_left cancelled, abs_neg, first] at others
  exact lt_irrefl _ others

/-! ### The greatest magnitude -/

theorem exactMagnitude_value (re im : RealExpr) : (exactMagnitude re im).value = √(re.value ^ 2 + im.value ^ 2) := by
  simp [exactMagnitude, exprSq, RealExpr.value, sq]

theorem exactPeak_cons_value (p : RealExpr × RealExpr) (z : List (RealExpr × RealExpr)) :
    (exactPeak (p :: z)).value = max (exactMagnitude p.1 p.2).value (exactPeak z).value := rfl

theorem exactPeak_nil_value : (exactPeak []).value = 0 := by simp [exactPeak]

/-- No magnitude of a stream is above its peak (43_oqpsk.md R190). -/
theorem exactMagnitude_le_exactPeak {z : List (RealExpr × RealExpr)} {p : RealExpr × RealExpr} (hp : p ∈ z) :
    (exactMagnitude p.1 p.2).value ≤ (exactPeak z).value := by
  induction z with
  | nil => cases hp
  | cons q z ih =>
    rw [exactPeak_cons_value]
    obtain rfl | hp := List.mem_cons.mp hp
    · exact le_max_left _ _
    · exact (ih hp).trans (le_max_right _ _)

/-- The peak of a stream that is not empty is one of its magnitudes (43_oqpsk.md R190). -/
theorem exactPeak_eq_exactMagnitude (z : List (RealExpr × RealExpr)) :
    z = [] ∨ ∃ p ∈ z, (exactPeak z).value = (exactMagnitude p.1 p.2).value := by
  induction z with
  | nil => exact .inl rfl
  | cons q z ih =>
    refine .inr ?_
    rw [exactPeak_cons_value]
    rcases le_total (exactPeak z).value (exactMagnitude q.1 q.2).value with below | above
    · exact ⟨q, List.mem_cons_self, max_eq_left below⟩
    · obtain rfl | ⟨p, hp, peak⟩ := ih
      · refine ⟨q, List.mem_cons_self, max_eq_left ?_⟩
        rw [exactPeak_nil_value, exactMagnitude_value]
        exact Real.sqrt_nonneg _
      · exact ⟨p, List.mem_cons_of_mem q hp, (max_eq_right above).trans peak⟩

/-! ### The peak of a modulated stream -/

theorem exactStream_length (ic qc : List Chip) (H spc : Nat) :
    (exactStream ic qc H spc).length = keptLength ic.length qc.length spc := by
  simp [exactStream, keptLength, Nat.add_comm]

theorem exactPeak_exactStream_pos {ic qc : List Chip} {H spc : Nat} (hs : 0 < spc)
    (kept : 0 < keptLength ic.length qc.length spc) : 0 < (exactPeak (exactStream ic qc H spc)).value := by
  have nonempty : ic ≠ [] := by
    rintro rfl
    simp [keptLength] at kept
  obtain ⟨y, hy, value⟩ := Option.map_eq_some_iff.mp (exactShape_zero_value (H := H) hs nonempty)
  have first : 0 < (exactStream ic qc H spc).length := by rwa [exactStream_length]
  have paired : ((exactStream ic qc H spc)[0]).1 = y := by
    have inside : (exactStream ic qc H spc)[0]? = some (exactStream ic qc H spc)[0] := List.getElem?_eq_getElem first
    obtain ⟨re, -⟩ := List.getElem?_zip_eq_some.mp inside
    exact Option.some.inj (re.symm.trans hy)
  refine lt_of_lt_of_le ?_ (exactMagnitude_le_exactPeak (List.getElem_mem first))
  rw [exactMagnitude_value, paired, value]
  have away : (∑ c ∈ Finset.range ic.length, firstWeight H spc c * chipReal ic c) / √(tapEnergy H spc) ≠ 0 :=
    div_ne_zero (sum_firstWeight_ne_zero nonempty H spc) (Real.sqrt_pos.mpr (tapEnergy_pos H spc)).ne'
  positivity

/-! ### The obligation -/

/-- Settles O50: with no sample kept the stream is empty, and with one kept its first sample is not 0. -/
theorem exactPeakIsZeroExactlyWhenNothingIsKept : Obligations.ExactPeakIsZeroExactlyWhenNothingIsKept := by
  intro ic qc H spc hs
  rw [peakIsZero, beq_iff_eq]
  refine ⟨fun zero => ?_, fun none => ?_⟩
  · by_contra kept
    exact (exactPeak_exactStream_pos hs (Nat.pos_of_ne_zero kept)).ne' zero
  · rw [List.length_eq_zero_iff.mp ((exactStream_length ic qc H spc).trans none), exactPeak_nil_value]

end Sys2Proof.Machine
end

section
/-! PROOFS for 43_oqpsk.md, section 6: what a modulation holds, `OQPSK.MOD` outside the faulted state, its agreement
with the step-by-step chain, and from these O48 and O49. -/

namespace Sys2Proof.Machine

/-! ### The normalised stream -/

/-- `M` is the greatest magnitude of the stream (43_oqpsk.md R190). -/
theorem exactPeak_isGreatest (z : List Sample) :
    (∀ v ∈ z, √((RealExpr.stored32 v.re).value ^ 2 + (RealExpr.stored32 v.im).value ^ 2) ≤
        (exactPeak (z.map sampleExpr)).value) ∧
      (z = [] ∨ ∃ v ∈ z, (exactPeak (z.map sampleExpr)).value =
        √((RealExpr.stored32 v.re).value ^ 2 + (RealExpr.stored32 v.im).value ^ 2)) := by
  simp only [← exactMagnitude_value]
  refine ⟨fun v hv => exactMagnitude_le_exactPeak (p := sampleExpr v) (List.mem_map_of_mem hv), ?_⟩
  obtain empty | ⟨p, hp, peak⟩ := exactPeak_eq_exactMagnitude (z.map sampleExpr)
  · exact .inl (List.map_eq_nil_iff.mp empty)
  · obtain ⟨v, hv, rfl⟩ := List.mem_map.mp hp
    exact .inr ⟨v, hv, peak⟩

theorem normalised_getElem? {spc n : Nat} {z : List Sample} {v : Sample} (hv : z[n]? = some v) :
    (normalised spc z)[n]? = some
      { re := Config.num32 (.div (.stored32 v.re) (exactPeak (z.map sampleExpr)))
        im := if n < spc / 2 then zero32
          else Config.num32 (.div (.stored32 v.im) (exactPeak (z.map sampleExpr))) } := by
  rw [normalised, List.getElem?_mapIdx, hv]
  rfl

theorem im_of_mem_peakWitness {n : Nat} {v : Sample} (hv : v ∈ peakWitness n) : v.im = zero32 := by
  obtain rfl | hv := List.mem_cons.mp hv
  · rfl
  · rw [List.eq_of_mem_replicate hv]
    rfl

/-- The samples injected by the offset have no imaginary part, whatever is stored (43_oqpsk.md R191; log entry 10). -/
theorem storedOutput_im {spc n : Nat} {z : List Sample} {v : Sample} (hv : (storedOutput spc z)[n]? = some v)
    (hn : n < spc / 2) : v.im = zero32 := by
  unfold storedOutput bounded at hv
  split at hv
  · have inside : n < z.length := (normalised_length spc z) ▸ (List.getElem?_eq_some_iff.mp hv).1
    rw [normalised_getElem? (List.getElem?_eq_getElem inside), Option.some_inj] at hv
    rw [← hv]
    exact if_pos hn
  · exact im_of_mem_peakWitness (List.mem_of_getElem? hv)

/-! ### What a modulation holds -/

/-- What is known of a modulation of which samples are kept: its taps are those of `RRC.TAPS`, its shaped streams those
of `RRC.SHAPEI` and `RRC.SHAPEQ`, its output the normalised stream (43_oqpsk.md R192; log entries 7, 9 and 10). -/
structure IsModulation (ic qc : List Chip) (H spc : Nat) (m : Modulation) : Prop where
  taps_length : m.taps.length = 2 * H + 1
  energy : unitEnergy m.taps = true
  taps_single : H = 0 → m.taps = [one64]
  taps_stored : H = 0 ∨ m.taps = (exactTaps 4 5 H spc).map Config.num64 ∨
    unitEnergy ((exactTaps 4 5 H spc).map Config.num64) = false
  iSig_eq : m.iSig = storedShape ic m.taps spc
  qSig_eq : m.qSig = storedShape qc m.taps spc
  out_normalised : m.out = normalised spc (combine m.iSig (delayQ spc m.qSig)) ∨
    unitPeak (normalised spc (combine m.iSig (delayQ spc m.qSig))) = false
  out_length : m.out.length = keptLength ic.length qc.length spc
  peak : unitPeak m.out = true
  offset : ∀ n z, m.out[n]? = some z → n < spc / 2 → z.im = zero32

theorem modulate_isModulation {ic qc : List Chip} {H spc : Nat} (kept : 0 < keptLength ic.length qc.length spc) :
    IsModulation ic qc H spc (modulate ic qc H spc) where
  taps_length := storedTaps_length H spc
  energy := unitEnergy_storedTaps H spc
  taps_single h := storedTaps_of_eq_zero h spc
  taps_stored := storedTaps_eq_or H spc
  iSig_eq := rfl
  qSig_eq := rfl
  out_normalised := bounded_eq_or _ _ _
  out_length := modulate_out_length kept
  peak := unitPeak_storedOutput _ _
  offset _ _ := storedOutput_im

/-! ### The operation outside the faulted state -/

/-- The tests of `OQPSK.MOD` in their order, the modulation named, so that no proof evaluates it (43_oqpsk.md R192). -/
theorem exec_oqpskMod {s : State} {m : Modulation} (he : s.err = none)
    (hm : m = modulate s.ichip s.qchip s.halfLength s.spc.toNat) :
    exec .oqpskMod s =
      if s.spc = 0 then .next (s.enterError .configurationMismatch)
      else if 2 ^ 32 ≤ 2 * s.halfLength + 1 ∨ 2 ^ 32 ≤ s.ichip.length * s.spc.toNat ∨
          2 ^ 32 ≤ s.qchip.length * s.spc.toNat + s.spc.toNat / 2 then .next (s.enterError .invalidInput)
      else if keptLength s.ichip.length s.qchip.length s.spc.toNat = 0 then .next (s.enterError .invalidInput)
      else .next ((s.writeModulation m).respond .done) := by
  rw [exec, execOqpskMod_eq, ← hm, apply_ite s.perform, apply_ite s.perform, apply_ite s.perform,
    State.perform_raise he, State.perform_raise he, State.perform_finish he]
  simp only [peakIsZero, beq_iff_eq, Bool.or_eq_true, overCapacity_eq_true, or_assoc, offsetSamples]

/-- What `OQPSK.MOD` completes to does not depend on the taps, shaped streams and response before it (43_oqpsk.md
R192). -/
theorem exec_oqpskMod_overwrites {s u : State} {r : Response} (he : s.err = none) (done : Completes s .oqpskMod u r)
    (t : List F64) (yi yq : List F32) (p : Option Response) :
    exec .oqpskMod { s with taps := t, ishp := yi, qshp := yq, resp := p } = .next (u.respond r) := by
  obtain ⟨m, hm⟩ : ∃ m, m = modulate s.ichip s.qchip s.halfLength s.spc.toNat := ⟨_, rfl⟩
  cases done with
  | oqpskMod configured fitsTaps fitsI fitsQ kept =>
    have fits := not_or.mpr ⟨Nat.not_le.mpr (overCapacity_eq_false.mp fitsTaps),
      not_or.mpr ⟨Nat.not_le.mpr (overCapacity_eq_false.mp fitsI), Nat.not_le.mpr (overCapacity_eq_false.mp fitsQ)⟩⟩
    rw [← hm, exec_oqpskMod (s := { s with taps := t, ishp := yi, qshp := yq, resp := p }) he hm, if_neg configured]
    exact (if_neg fits).trans (if_neg (beq_eq_false_iff_ne.mp kept))

/-- An operation after which CORE is not faulted ran in a CORE that was not, and completed (60_exceptions.md R275). -/
theorem completes_of_exec {i : Instr} {s t : State} (h : exec i s = .next t) (hi : ¬AcceptedWhileFaulted i)
    (ht : t.err = none) : s.err = none ∧ ∃ u r, Completes s i u r ∧ t = u.respond r := by
  obtain ⟨faulted, k, rfl⟩ | ⟨-, k, rfl⟩ | ⟨u, r, done, run, rfl⟩ := exec_cases h
  · exact absurd ht faulted
  · exact nomatch ht
  · exact ⟨run.resolve_right hi, u, r, done, rfl⟩

/-! ### The obligations -/

/-- Settles O48. -/
theorem modulatorWritesAUnitPeakOutput : Obligations.ModulatorWritesAUnitPeakOutput := by
  refine ⟨rfl, fun spc z => ?_, fun s H L he hH hL => ?_⟩
  · obtain ⟨bound, attained⟩ := exactPeak_isGreatest z
    exact ⟨_, bound, attained, normalised_length spc z, fun n v => normalised_getElem?⟩
  obtain rfl : H = s.halfLength := hH.trans s.halfLength_eq.symm
  obtain rfl : L = keptLength s.ichip.length s.qchip.length s.spc.toNat := hL
  obtain ⟨m, hm⟩ : ∃ m, m = modulate s.ichip s.qchip s.halfLength s.spc.toNat := ⟨_, rfl⟩
  rw [exec_oqpskMod he hm]
  refine ⟨fun unset => if_pos unset, fun configured large => ?_, fun configured fitsTaps fitsI fitsQ => ?_⟩
  · rw [if_neg configured, if_pos large]
  have fits := not_or.mpr ⟨Nat.not_le.mpr fitsTaps, not_or.mpr ⟨Nat.not_le.mpr fitsI, Nat.not_le.mpr fitsQ⟩⟩
  rw [if_neg configured, if_neg fits]
  refine ⟨fun nothing => if_pos nothing, fun kept => ?_⟩
  have holds := hm ▸ modulate_isModulation (H := s.halfLength) kept
  rw [if_neg kept.ne']
  exact ⟨m.taps, m.iSig, m.qSig, m.out, holds.taps_length, holds.energy, holds.taps_single, holds.taps_stored,
    holds.iSig_eq, holds.qSig_eq, holds.out_normalised, holds.out_length, holds.peak, holds.offset, rfl⟩

/-- Settles O49: the chain writes no more than the modulator writes again. -/
theorem modulatorEqualsTheStepByStepChain : Obligations.ModulatorEqualsTheStepByStepChain := by
  intro s a b c u he ha hb hc hcn hu hun
  obtain ⟨hbn, _, _, shapedQ, rfl⟩ := completes_of_exec hc id hcn
  obtain ⟨han, _, _, shapedI, rfl⟩ := completes_of_exec hb id hbn
  obtain ⟨-, _, _, tapped, rfl⟩ := completes_of_exec ha id han
  obtain ⟨-, _, _, modulated, rfl⟩ := completes_of_exec hu id hun
  have again := exec_oqpskMod_overwrites he modulated
  cases tapped
  cases shapedI
  cases shapedQ
  cases modulated
  exact ⟨rfl, rfl, rfl, again _ _ _ _⟩

end Sys2Proof.Machine
end

section
/-! PROOFS for 45_frame.md, section 4, the 2G frame: `ASM` outside the faulted state, its agreement with the
step-by-step chain, and from these O55 and O56. The spread chips and the modulation are variables throughout, each with
its equation, so that no proof evaluates them. -/

namespace Sys2Proof.Machine

/-! ### The spread frame -/

/-- The seeds the mode selects (45_frame.md R222). -/
theorem State.seeds_eq (s : State) :
    s.seeds = (if s.cfg.getLsbD 1 then s.seedIT else s.seedIN, if s.cfg.getLsbD 1 then s.seedQT else s.seedQN) := by
  unfold State.seeds State.test
  split <;> rfl

/-- Each register advances by 256 steps for each of its 150 bits (45_frame.md R219). -/
theorem State.frameSpread_states {s : State} (message : s.mbits.length = Config.message2G) :
    s.frameSpread.stateI = stateAfter s.seeds.1 38400 ∧ s.frameSpread.stateQ = stateAfter s.seeds.2 38400 := by
  rw [State.frameSpread, spread_stateI, spread_stateQ, frameBits_g2_length message]
  exact ⟨rfl, rfl⟩

/-- All samples of the I channel are kept (45_frame.md R220). -/
theorem State.keptLength_frameSpread {s : State} (message : s.mbits.length = Config.message2G) (spc : Nat) :
    keptLength s.frameSpread.iChips.length s.frameSpread.qChips.length spc = 38400 * spc := by
  obtain ⟨lengthI, lengthQ⟩ := s.frameSpread_length message
  rw [lengthI, lengthQ]
  exact Nat.min_eq_left (Nat.le_add_right _ _)

/-! ### The operation outside the faulted state -/

/-- `ASM` in 2G: the length of the message, the capacity, `SPC`, the seeds; the peak is never 0 (45_frame.md R220). -/
theorem exec_asm_g2 {s : State} {c : Spread} {m : Modulation} (he : s.err = none) (hg : s.gen = .g2)
    (hc : c = s.frameSpread) (hm : m = modulate c.iChips c.qChips s.halfLength s.spc.toNat) :
    exec .asm s =
      if s.mbits.length ≠ 250 then .next (s.enterError .invalidInput)
      else if 2 ^ 32 ≤ 2 * s.halfLength + 1 then .next (s.enterError .invalidInput)
      else if s.spc = 0 then .next (s.enterError .configurationMismatch)
      else if s.seeds.1 = 0 ∨ s.seeds.2 = 0 then .next (s.enterError .invalidSeed)
      else .next ((s.writeFrame (frameBits .g2 s.test s.mbits) c m).respond .done) := by
  have ran : exec .asm s = s.perform (asm2G s) := by rw [exec, execAsm, hg]
  rw [ran, asm2G_eq hc hm, apply_ite s.perform, apply_ite s.perform, apply_ite s.perform, apply_ite s.perform,
    apply_ite s.perform, State.perform_raise he, State.perform_raise he, State.perform_raise he,
    State.perform_finish he]
  simp only [Bool.not_eq_true', ← Bool.not_eq_true, messageLengthOk_g2_iff, overCapacity_eq_true]
  by_cases message : s.mbits.length = 250
  · by_cases configured : s.spc = 0
    · simp only [if_pos configured]
    · have rate : 0 < s.spc.toNat := Nat.pos_of_ne_zero fun h => configured (BitVec.eq_of_toNat_eq h)
      have kept : ¬peakIsZero c.iChips c.qChips s.spc.toNat = true := by
        rw [peakIsZero, hc, s.keptLength_frameSpread message, beq_iff_eq]
        omega
      rw [if_neg kept]
  · rw [if_pos message, if_pos message]

/-- A valid 2G frame is spread, modulated and written (45_frame.md R219, R220). -/
theorem exec_asm_g2_of_valid {s : State} {c : Spread} {m : Modulation} (he : s.err = none) (hg : s.gen = .g2)
    (message : s.mbits.length = 250) (fits : 2 * s.halfLength + 1 < 2 ^ 32) (configured : s.spc ≠ 0)
    (loadedI : s.seeds.1 ≠ 0) (loadedQ : s.seeds.2 ≠ 0) (hc : c = s.frameSpread)
    (hm : m = modulate c.iChips c.qChips s.halfLength s.spc.toNat) :
    exec .asm s = .next ((s.writeFrame (frameBits .g2 s.test s.mbits) c m).respond .done) := by
  rw [exec_asm_g2 he hg hc hm, if_neg (not_not_intro message), if_neg (Nat.not_le.mpr fits), if_neg configured,
    if_neg (not_or.mpr ⟨loadedI, loadedQ⟩)]

/-! ### The step-by-step chain -/

section
variable {s t : State} (ht : t.err = none)
include ht

/-- A `FRM.BUILD` that raises no error had a message of the right length (45_frame.md R217). -/
theorem frmBuild_of_exec (h : exec .frmBuild s = .next t) :
    messageLengthOk s.gen s.mbits.length = true ∧
      t = State.respond { s with fbits := frameBits s.gen s.test s.mbits } .done := by
  obtain ⟨he, u, r, done, rfl⟩ := completes_of_exec h id ht
  cases done
  refine ⟨?_, rfl⟩
  by_contra wrong
  rw [exec_frmBuild he, if_neg wrong] at h
  exact nomatch (congrArg State.err (Host.Outcome.next.inj h)).trans ht

/-- A `DSSS.SPREAD` that raises no error had both registers loaded (41_dsss.md R156). -/
theorem dsssSpread_of_exec {c : Spread} (h : exec .dsssSpread s = .next t)
    (hc : c = spread s.fbits 256 s.lfsrI s.lfsrQ) :
    s.lfsrI ≠ 0 ∧ s.lfsrQ ≠ 0 ∧
      t = State.respond
        { s with ichip := c.iChips, qchip := c.qChips, lfsrI := c.stateI, lfsrQ := c.stateQ } .done := by
  obtain ⟨-, u, r, done, rfl⟩ := completes_of_exec h id ht
  cases done with
  | dsssSpread loadedI loadedQ => exact ⟨loadedI, loadedQ, by rw [hc]; rfl⟩

/-- An `OQPSK.MOD` that raises no error had `SPC` set and taps that fit (43_oqpsk.md R192). -/
theorem oqpskMod_of_exec {m : Modulation} (h : exec .oqpskMod s = .next t)
    (hm : m = modulate s.ichip s.qchip s.halfLength s.spc.toNat) :
    s.spc ≠ 0 ∧ 2 * s.halfLength + 1 < 2 ^ 32 ∧ t = (s.writeModulation m).respond .done := by
  obtain ⟨-, u, r, done, rfl⟩ := completes_of_exec h id ht
  cases done with
  | oqpskMod configured fitsTaps => exact ⟨configured, overCapacity_eq_false.mp fitsTaps, by rw [hm]⟩

end

/-! ### The obligations -/

/-- Settles O55. -/
theorem assembleSecondGenerationFrame : Obligations.AssembleSecondGenerationFrame := by
  intro s H seedI seedQ he hg hH hI hQ
  obtain rfl : H = s.halfLength := hH.trans s.halfLength_eq.symm
  obtain rfl : seedI = s.seeds.1 := hI.trans (congrArg Prod.fst s.seeds_eq).symm
  obtain rfl : seedQ = s.seeds.2 := hQ.trans (congrArg Prod.snd s.seeds_eq).symm
  obtain ⟨c, hc⟩ : ∃ c, c = s.frameSpread := ⟨_, rfl⟩
  obtain ⟨m, hm⟩ : ∃ m, m = modulate c.iChips c.qChips s.halfLength s.spc.toNat := ⟨_, rfl⟩
  rw [exec_asm_g2 he (State.gen_of_g2 hg) hc hm]
  refine ⟨fun refused => ?_, fun message fits => ?_⟩
  · by_cases message : s.mbits.length = 250
    · rw [if_neg (not_not_intro message), if_pos (refused.resolve_left (not_not_intro message))]
    · rw [if_pos message]
  rw [if_neg (not_not_intro message), if_neg (Nat.not_le.mpr fits)]
  refine ⟨fun unset => if_pos unset, fun configured zero => ?_, fun configured loadedI loadedQ => ?_⟩
  · rw [if_neg configured, if_pos zero]
  rw [if_neg configured, if_neg (not_or.mpr ⟨loadedI, loadedQ⟩)]
  have rate : 0 < s.spc.toNat := Nat.pos_of_ne_zero fun h => configured (BitVec.eq_of_toNat_eq h)
  have length := s.keptLength_frameSpread message s.spc.toNat
  obtain ⟨lengthI, lengthQ⟩ := s.frameSpread_length message
  obtain ⟨stateI, stateQ⟩ := s.frameSpread_states message
  have channels : spread (frameBits .g2 s.test s.mbits) 256 s.seeds.1 s.seeds.2 = c := hc.symm
  rw [← hc] at length lengthI lengthQ stateI stateQ
  have holds := hm ▸ modulate_isModulation (H := s.halfLength) (by rw [length]; omega)
  refine ⟨frameBits .g2 s.test s.mbits, m.taps, m.iSig, m.qSig, m.out, rfl, holds.taps_length, holds.energy,
    holds.taps_single, holds.taps_stored, ?_⟩
  rw [channels, ← stateI, ← stateQ]
  exact ⟨holds.iSig_eq, holds.qSig_eq, holds.out_normalised, holds.out_length.trans length, holds.peak, holds.offset,
    lengthI, lengthQ, rfl⟩

/-- Settles O56. -/
theorem assembleEqualsTheStepByStepChain : Obligations.AssembleEqualsTheStepByStepChain := by
  intro s a b c u he hg hI hQ ha hb hc hcn hu
  obtain ⟨k, hk⟩ : ∃ k, k = s.frameSpread := ⟨_, rfl⟩
  obtain ⟨m, hm⟩ : ∃ m, m = modulate k.iChips k.qChips s.halfLength s.spc.toNat := ⟨_, rfl⟩
  have seedI : s.lfsrI = s.seeds.1 := hI.trans (congrArg Prod.fst s.seeds_eq).symm
  have seedQ : s.lfsrQ = s.seeds.2 := hQ.trans (congrArg Prod.snd s.seeds_eq).symm
  have hk' : k = spread (frameBits .g2 s.test s.mbits) 256 s.lfsrI s.lfsrQ := by rw [seedI, seedQ]; exact hk
  obtain ⟨hbn, -⟩ := completes_of_exec hc id hcn
  obtain ⟨han, -⟩ := completes_of_exec hb id hbn
  obtain ⟨message, rfl⟩ := frmBuild_of_exec han ha
  rw [State.gen_of_g2 hg] at message hb
  obtain ⟨loadedI, loadedQ, rfl⟩ := dsssSpread_of_exec hbn hb hk'
  obtain ⟨configured, fits, rfl⟩ := oqpskMod_of_exec hcn hc hm
  have assembled := exec_asm_g2_of_valid he (State.gen_of_g2 hg) ((messageLengthOk_g2_iff _).mp message) fits configured
    (seedI ▸ loadedI) (seedQ ▸ loadedQ) hk hm
  exact Host.Outcome.next.inj (assembled.symm.trans hu)

end Sys2Proof.Machine
end
